-- ==== Sys2Proof/Word.lean ====
section
/-! DEFINITION. The word types of the block (00_scope.md R6: all values are unsigned, bit 0 is the least significant). -/

namespace Sys2Proof

/-- A byte on the wire, 8 bits (R6). -/
abbrev Byte := BitVec 8

/-- A register value or a checksum, 16 bits (R6, R21). -/
abbrev Word16 := BitVec 16

/-- A timestamp: `TS_W = 32` bits of milliseconds (00_scope.md R5, 92_eei_decisions.md D3). -/
abbrev Timestamp := BitVec 32

/-- The event word of 30_encoding.md R71: `op` in bits 11:8, `data` in bits 7:0. -/
abbrev EventWord := BitVec 12

end Sys2Proof
end

