-- ==== Sys2Proof/Config.lean ====
section
/-! DEFINITION. The constants of the block and its configuration record (00_scope.md R5, 10_state.md R32).
The spec leaves no result of any operation undefined, so there is no free value here. -/

namespace Sys2Proof

/-- `FUNC`: the function code "read holding registers" (R5). -/
def funcCode : Byte := 0x03#8

/-- `CRC_POLY` (R5, R100). -/
def crcPoly : Word16 := 0xA001#16

/-- `CRC_INIT`, the initial value of the checksum (R5, R103). -/
def crcInitValue : Word16 := 0xFFFF#16

/-- `BUF_DEPTH`: capacity of the AssemblyBuffer in bytes, 3 + 2*125 + 2 (R5, D18). -/
def bufDepth : Nat := 255

/-- `M_MAX`: the longest slave list (R5, D16). -/
def slavesMax : Nat := 247

/-- The configuration inputs of R5 and R32. `POLL_INTERVAL_MS` belongs to the environment and no rule reads it (R239).
Entries, start address and register count are unbounded naturals, so that a value outside the legal range is one of
this type and meets the rule the spec gives it (R195, D30, U10; assumption 9). -/
structure Config where
  /-- `SLAVES`: the ordered list of slave addresses. -/
  slaves : List Nat
  /-- `START_ADDR`. -/
  startAddr : Nat
  /-- `REG_COUNT`. -/
  regCount : Nat
  /-- `RESPONSE_TIMEOUT_MS`. -/
  responseTimeoutMs : Timestamp
  deriving DecidableEq, Repr

/-- The configuration of `State.reset` (assumption 2): `REG_COUNT = 2` is this system's value (R5); DESIGN CHOICE: the
other three are OPEN in the spec, and this takes those of program P1 (95_test_vectors.md). -/
def Config.initial : Config :=
  { slaves := [1], startAddr := 0, regCount := 2, responseTimeoutMs := 1000#32 }

end Sys2Proof
end

