-- ==== Sys2Proof/Machine/Crc.lean ====
section
/-! DEFINITION. The checksum functions of 40_crc.md R100 to R103, and the equivalent hardware forms of R108, R109 and
R112, which are no part of the step and stand here to be proved equal. -/

namespace Sys2Proof.Machine

/-- `crc16_bit` (R100): the low bit is tested before the logical shift. -/
def crc16Bit (r : Word16) : Word16 :=
  if r.getLsbD 0 then (r >>> 1) ^^^ crcPoly else r >>> 1

/-- `f` applied `n` times. -/
def iterated {α : Type} (f : α → α) : Nat → α → α
  | 0, x => x
  | n + 1, x => iterated f n (f x)

/-- `crc16_byte` (R101): XOR into the low byte, then exactly eight bit steps. -/
def crc16Byte (r : Word16) (b : Byte) : Word16 := iterated crc16Bit 8 (r ^^^ b.setWidth 16)

/-- `crc16_update` (R102): fold a byte sequence, index 0 first. -/
def crc16Update : Word16 → List Byte → Word16
  | r, [] => r
  | r, b :: t => crc16Update (crc16Byte r b) t

/-- `crc16` (R103): the source's `checksum`; no final XOR. -/
def crc16 (s : List Byte) : Word16 := crc16Update crcInitValue s

/-! Equivalent forms (R108, R109, R112). -/

/-- The rows of R108 from 0x00 to 0x7F. -/
def crcTableLow : List Word16 :=
  [0x0000, 0xC0C1, 0xC181, 0x0140, 0xC301, 0x03C0, 0x0280, 0xC241] ++
  [0xC601, 0x06C0, 0x0780, 0xC741, 0x0500, 0xC5C1, 0xC481, 0x0440] ++
  [0xCC01, 0x0CC0, 0x0D80, 0xCD41, 0x0F00, 0xCFC1, 0xCE81, 0x0E40] ++
  [0x0A00, 0xCAC1, 0xCB81, 0x0B40, 0xC901, 0x09C0, 0x0880, 0xC841] ++
  [0xD801, 0x18C0, 0x1980, 0xD941, 0x1B00, 0xDBC1, 0xDA81, 0x1A40] ++
  [0x1E00, 0xDEC1, 0xDF81, 0x1F40, 0xDD01, 0x1DC0, 0x1C80, 0xDC41] ++
  [0x1400, 0xD4C1, 0xD581, 0x1540, 0xD701, 0x17C0, 0x1680, 0xD641] ++
  [0xD201, 0x12C0, 0x1380, 0xD341, 0x1100, 0xD1C1, 0xD081, 0x1040] ++
  [0xF001, 0x30C0, 0x3180, 0xF141, 0x3300, 0xF3C1, 0xF281, 0x3240] ++
  [0x3600, 0xF6C1, 0xF781, 0x3740, 0xF501, 0x35C0, 0x3480, 0xF441] ++
  [0x3C00, 0xFCC1, 0xFD81, 0x3D40, 0xFF01, 0x3FC0, 0x3E80, 0xFE41] ++
  [0xFA01, 0x3AC0, 0x3B80, 0xFB41, 0x3900, 0xF9C1, 0xF881, 0x3840] ++
  [0x2800, 0xE8C1, 0xE981, 0x2940, 0xEB01, 0x2BC0, 0x2A80, 0xEA41] ++
  [0xEE01, 0x2EC0, 0x2F80, 0xEF41, 0x2D00, 0xEDC1, 0xEC81, 0x2C40] ++
  [0xE401, 0x24C0, 0x2580, 0xE541, 0x2700, 0xE7C1, 0xE681, 0x2640] ++
  [0x2200, 0xE2C1, 0xE381, 0x2340, 0xE101, 0x21C0, 0x2080, 0xE041]

/-- The rows of R108 from 0x80 to 0xFF. -/
def crcTableHigh : List Word16 :=
  [0xA001, 0x60C0, 0x6180, 0xA141, 0x6300, 0xA3C1, 0xA281, 0x6240] ++
  [0x6600, 0xA6C1, 0xA781, 0x6740, 0xA501, 0x65C0, 0x6480, 0xA441] ++
  [0x6C00, 0xACC1, 0xAD81, 0x6D40, 0xAF01, 0x6FC0, 0x6E80, 0xAE41] ++
  [0xAA01, 0x6AC0, 0x6B80, 0xAB41, 0x6900, 0xA9C1, 0xA881, 0x6840] ++
  [0x7800, 0xB8C1, 0xB981, 0x7940, 0xBB01, 0x7BC0, 0x7A80, 0xBA41] ++
  [0xBE01, 0x7EC0, 0x7F80, 0xBF41, 0x7D00, 0xBDC1, 0xBC81, 0x7C40] ++
  [0xB401, 0x74C0, 0x7580, 0xB541, 0x7700, 0xB7C1, 0xB681, 0x7640] ++
  [0x7200, 0xB2C1, 0xB381, 0x7340, 0xB101, 0x71C0, 0x7080, 0xB041] ++
  [0x5000, 0x90C1, 0x9181, 0x5140, 0x9301, 0x53C0, 0x5280, 0x9241] ++
  [0x9601, 0x56C0, 0x5780, 0x9741, 0x5500, 0x95C1, 0x9481, 0x5440] ++
  [0x9C01, 0x5CC0, 0x5D80, 0x9D41, 0x5F00, 0x9FC1, 0x9E81, 0x5E40] ++
  [0x5A00, 0x9AC1, 0x9B81, 0x5B40, 0x9901, 0x59C0, 0x5880, 0x9841] ++
  [0x8801, 0x48C0, 0x4980, 0x8941, 0x4B00, 0x8BC1, 0x8A81, 0x4A40] ++
  [0x4E00, 0x8EC1, 0x8F81, 0x4F40, 0x8D01, 0x4DC0, 0x4C80, 0x8C41] ++
  [0x4400, 0x84C1, 0x8581, 0x4540, 0x8701, 0x47C0, 0x4680, 0x8641] ++
  [0x8201, 0x42C0, 0x4380, 0x8341, 0x4100, 0x81C1, 0x8081, 0x4040]

/-- The table `T` of R108. -/
def crcTable : List Word16 := crcTableLow ++ crcTableHigh

/-- The table form of `crc16_byte` (R108): `(r >> 8) ^ T[(r ^ b) & 0xFF]`. -/
def crc16ByteTable (r : Word16) (b : Byte) : Word16 :=
  (r >>> 8) ^^^ crcTable.getD ((r ^^^ b.setWidth 16) &&& 0xFF#16).toNat 0#16

/-- The bit `n_i` of the one-step XOR network of R109, `i` from 0 to 15, over the bits `c` of `r` and
`e i = c i ^ d i` of the low byte. -/
def crc16NetBit (c e : Nat → Bool) (i : Nat) : Bool :=
  let p := e 0 ^^ e 1 ^^ e 2 ^^ e 3 ^^ e 4 ^^ e 5 ^^ e 6 ^^ e 7
  match i with
  | 15 => p
  | 14 => p ^^ e 7
  | 13 => e 6 ^^ e 7
  | 12 => e 5 ^^ e 6
  | 11 => e 4 ^^ e 5
  | 10 => e 3 ^^ e 4
  | 9 => e 2 ^^ e 3
  | 8 => e 1 ^^ e 2
  | 7 => e 0 ^^ e 1 ^^ c 15
  | 6 => e 0 ^^ c 14
  | 5 => c 13
  | 4 => c 12
  | 3 => c 11
  | 2 => c 10
  | 1 => c 9
  | 0 => p ^^ c 8
  | _ => false

/-- One clock of the bit-serial form (R112): the feedback is the low bit of the register XOR the data bit. -/
def crc16SerialBit (r : Word16) (d : Bool) : Word16 :=
  if r.getLsbD 0 ^^ d then (r >>> 1) ^^^ crcPoly else r >>> 1

/-- The bit-serial form of `crc16_byte` (R112): bits 0 to 7 of the byte in that order. -/
def crc16ByteSerial (r : Word16) (b : Byte) : Word16 :=
  (List.range 8).foldl (fun acc j => crc16SerialBit acc (b.getLsbD j)) r

end Sys2Proof.Machine
end

