-- ==== Sys2Proof/Syntax.lean ====
section
/-! DEFINITION. The operations of 30_encoding.md R70, one constructor per row of spec/opcode_table.json, and what is
presented to the block from outside. -/

namespace Sys2Proof

/-- The decoded response of R76; as the operand of `DECODE` it is any sequence of 5 + 2N bytes read into the five
fields of R75, checked or not. -/
structure ResponseFrame where
  /-- byte 0 -/
  slaveAddress : Byte
  /-- byte 1 -/
  functionCode : Byte
  /-- byte 2, the declared register-data length -/
  byteCount : Byte
  /-- bytes 3 and on, 16 bits each, high byte first (R51) -/
  registers : List Word16
  /-- the last two bytes, low byte first (R52), as received -/
  checksum : Word16
  deriving DecidableEq, Repr

/-- The nine operations (R70). `now` is the sideband operand of the two events that read it (R71). -/
inductive Instr where
  /-- `NOP`: no event (R245). -/
  | nop
  /-- `RST`: reset (R260). -/
  | rst
  /-- `TICK`: the periodic poll timer fired (R190). -/
  | tick (now : Timestamp)
  /-- `RX_BYTE`: the transport delivered one byte (R152). -/
  | rxByte (b : Byte) (now : Timestamp)
  /-- `TERR`: the transport signalled an error (R246). -/
  | terr
  /-- `CRC_INIT`: load the Checksum Engine register with 0xFFFF (R104). -/
  | crcInit
  /-- `CRC_BYTE`: fold one byte into the Checksum Engine register (R105). -/
  | crcByte (b : Byte)
  /-- `ENCODE`: the function `encode(a, s, n)` on unsigned integers (R130). -/
  | encode (a s n : Nat)
  /-- `DECODE`: validation and decoding of a response (R155 to R160). -/
  | decode (frame : ResponseFrame)
  deriving DecidableEq, Repr

/-- What the environment presents to the block: an event word with its timestamp (R71), or the call of an internal
function by its wire encoding (R70, assumption 7). -/
inductive Stimulus where
  | event (word : EventWord) (now : Timestamp)
  | call (bytes : List Byte)
  deriving DecidableEq, Repr

/-- Why a stimulus is no operation, by name (R80, R81). -/
inductive DecodeError where
  /-- `op` is 0x5, 0x6, 0x7 or 0xA to 0xF (R72, R80). -/
  | reservedOp (op : BitVec 4)
  /-- Neither a request frame (8 bytes) nor a response frame (5 + 2N bytes, at most 255) (R73, R75). -/
  | frameLength (n : Nat)
  /-- Byte 1 of a request frame is not 0x03 (R73, R81). -/
  | requestFunctionCode (b : Byte)
  deriving DecidableEq, Repr

end Sys2Proof
end

