-- ==== Sys2Proof/Machine/Wire.lean ====
section
/-! DEFINITION. Byte order and wire formats (20_memory.md R51, R52; 30_encoding.md R73 to R77), and the two internal
functions `ENCODE` (41_frame_encoder.md R130) and `DECODE` (42_response_assembler.md R155 to R160) over byte sequences. -/

namespace Sys2Proof.Machine

/-- `v[7:0]`. -/
def loByte (v : Word16) : Byte := v.extractLsb' 0 8

/-- `v[15:8]`. -/
def hiByte (v : Word16) : Byte := v.extractLsb' 8 8

/-- The 16-bit value of a high and a low byte, `h*256 + l` (R51, R52). -/
def wordOf (h l : Byte) : Word16 := h ++ l

/-- A body and its checksum, low byte first (R52, R74). -/
def withChecksum (body : List Byte) : List Byte := body ++ [loByte (crc16 body), hiByte (crc16 body)]

/-- "the trailing 2 bytes equal the checksum of all preceding bytes" (R159); false for fewer than two bytes. -/
def checksumOk (frame : List Byte) : Bool :=
  match frame.drop (frame.length - 2) with
  | [l, h] =>
    let c := crc16 (frame.take (frame.length - 2))
    l = loByte c && h = hiByte c
  | _ => false

/-- Register values as bytes, high byte first (R51). -/
def registerBytes : List Word16 → List Byte
  | [] => []
  | v :: t => hiByte v :: loByte v :: registerBytes t

/-- Big-endian pairs of bytes as register values (R51, R160); an odd last byte belongs to no pair. -/
def registersOf : List Byte → List Word16
  | h :: l :: t => wordOf h l :: registersOf t
  | _ => []

/-! The request frame. -/

/-- The preconditions of R131: `slaveAddress` in [1,247], `startAddress` in 16 bits, `registerCount` in [1,125]. -/
def legalRequest (a s n : Nat) : Bool :=
  (1 ≤ a && a ≤ 247) && s ≤ 65535 && (1 ≤ n && n ≤ 125)

/-- The six header and data bytes of a request (R73, R130). -/
def requestBody (a s n : Nat) : List Byte :=
  [BitVec.ofNat 8 a, funcCode, hiByte (BitVec.ofNat 16 s), loByte (BitVec.ofNat 16 s),
    hiByte (BitVec.ofNat 16 n), loByte (BitVec.ofNat 16 n)]

/-- The eight bytes of a request (R73). -/
def requestFrame (a s n : Nat) : List Byte := withChecksum (requestBody a s n)

/-- `encode(a, s, n)` (R130): the frame, or `none` where it raises `InvalidParameter` (R131). -/
def encodeRequest (a s n : Nat) : Option (List Byte) :=
  if legalRequest a s n then some (requestFrame a s n) else none

/-! The response frame. -/

/-- The wire bytes of a response (R75). -/
def responseBytes (f : ResponseFrame) : List Byte :=
  f.slaveAddress :: f.functionCode :: f.byteCount ::
    (registerBytes f.registers ++ [loByte f.checksum, hiByte f.checksum])

/-- The five fields of a sequence of at least 5 bytes (R76). It is applied to no shorter one. -/
def responseOf (bytes : List Byte) : ResponseFrame :=
  { slaveAddress := bytes.getD 0 0#8
    functionCode := bytes.getD 1 0#8
    byteCount := bytes.getD 2 0#8
    registers := registersOf ((bytes.drop 3).take (bytes.length - 5))
    checksum := wordOf (bytes.getD (bytes.length - 1) 0#8) (bytes.getD (bytes.length - 2) 0#8) }

/-- The length at which a frame with this byte count is full (R77, R158). -/
def expectedTotal (byteCount : Byte) : Nat := 3 + byteCount.toNat + 2

/-- The declared byte count a request of `n` registers asks for (R157). -/
def requestedByteCount (n : Nat) : Nat := 2 * n

/-- What `DECODE` says of a byte sequence. -/
inductive Verdict where
  /-- Every check so far holds and the frame is not full. -/
  | incomplete
  | accepted (f : ResponseFrame)
  | frameMismatch
  | checksumMismatch
  deriving DecidableEq, Repr

/-- `DECODE` (R155 to R160) for the polled address and the requested register count: the first failing check decides,
in byte order (R166); bytes after the frame's own length are ignored (90_conflicts.md C6). -/
def decodeResponse (polled : Byte) (regCount : Nat) (bytes : List Byte) : Verdict :=
  match bytes with
  | [] => .incomplete
  | a :: rest =>
    if a ≠ polled then .frameMismatch
    else match rest with
    | [] => .incomplete
    | f :: rest =>
      if f ≠ funcCode then .frameMismatch
      else match rest with
      | [] => .incomplete
      | c :: _ =>
        if c.toNat ≠ requestedByteCount regCount then .frameMismatch
        else if bytes.length < expectedTotal c then .incomplete
        else if checksumOk (bytes.take (expectedTotal c)) then .accepted (responseOf (bytes.take (expectedTotal c)))
        else .checksumMismatch

end Sys2Proof.Machine
end

