-- ==== Sys2Proof/WellFormed.lean ====
section
/-! DEFINITION. Which operations have an encoding. An operation outside it still has its meaning (ENCODE on wider
operands raises InvalidParameter, R131). -/

namespace Sys2Proof

/-- A response fits the AssemblyBuffer when it carries at most 125 registers (R64, D18). -/
def ResponseFrame.wf (f : ResponseFrame) : Bool := f.registers.length ≤ 125

/-- The operation has an encoding: every event has; the operands of `ENCODE` fit their fields, 8, 16 and 16 bits (R73), be
they legal or not (R131); a response frame holds at most 255 bytes (R64). -/
def Instr.wf : Instr → Bool
  | .nop => true
  | .rst => true
  | .tick _ => true
  | .rxByte _ _ => true
  | .terr => true
  | .crcInit => true
  | .crcByte _ => true
  | .encode a s n => a ≤ 255 && s ≤ 65535 && n ≤ 65535
  | .decode f => f.wf

end Sys2Proof
end

