-- ==== Sys2Proof/Decode.lean ====
section
/-! DEFINITION. The decoder of what is presented to the block (30_encoding.md R71 to R75, R80) and, after it, the
encoder. -/

namespace Sys2Proof

/-- `word[11:8]` (R71). -/
def eventOp (w : EventWord) : BitVec 4 := w.extractLsb' 8 4

/-- `word[7:0]` (R71). -/
def eventData (w : EventWord) : Byte := w.extractLsb' 0 8

/-- The operation codes of R72; `data` is read by `RX_BYTE` and `CRC_BYTE` only (U5). -/
def decodeEvent (w : EventWord) (now : Timestamp) : Except DecodeError Instr :=
  match (eventOp w).toNat with
  | 0x0 => .ok .nop
  | 0x1 => .ok .rst
  | 0x2 => .ok (.tick now)
  | 0x3 => .ok (.rxByte (eventData w) now)
  | 0x4 => .ok .terr
  | 0x8 => .ok .crcInit
  | 0x9 => .ok (.crcByte (eventData w))
  | _ => .error (.reservedOp (eventOp w))

/-- A request frame as the call of `ENCODE` with the operands its fields hold (R73). Another function code is no request
(R81). DESIGN CHOICE (assumption 7): operands out of range are a call too, whose result is InvalidParameter (R131), and
the last two bytes are the function's result, no operand, so the decoder ignores them. -/
def decodeRequest (a f sh sl nh nl : Byte) : Except DecodeError Instr :=
  if f ≠ funcCode then .error (.requestFunctionCode f)
  else .ok (.encode a.toNat (Machine.wordOf sh sl).toNat (Machine.wordOf nh nl).toNat)

/-- A function call from its wire encoding, told apart by length: 8 bytes are a request frame (R73), 5 + 2N bytes up to
the buffer's 255 a response frame (R75). -/
def decodeCall (bytes : List Byte) : Except DecodeError Instr :=
  match bytes with
  | [a, f, sh, sl, nh, nl, _, _] => decodeRequest a f sh sl nh nl
  | _ =>
    if 5 ≤ bytes.length && bytes.length ≤ bufDepth && bytes.length % 2 = 1
    then .ok (.decode (Machine.responseOf bytes))
    else .error (.frameLength bytes.length)

/-- The decoder, total on every stimulus, rejecting by name. -/
def decode : Stimulus → Except DecodeError Instr
  | .event w now => decodeEvent w now
  | .call bytes => decodeCall bytes

/-- The event word of an operation code and a data byte (R71). -/
def eventWord (op : BitVec 4) (data : Byte) : EventWord := op ++ data

/-- The encoder (R71 to R75). DESIGN CHOICE: an ignored `data` field is encoded as 0 (assumption 8); an event without
timestamp operand carries 0 beside it. -/
def encode : Instr → Stimulus
  | .nop => .event (eventWord 0x0#4 0#8) 0#32
  | .rst => .event (eventWord 0x1#4 0#8) 0#32
  | .tick now => .event (eventWord 0x2#4 0#8) now
  | .rxByte b now => .event (eventWord 0x3#4 b) now
  | .terr => .event (eventWord 0x4#4 0#8) 0#32
  | .crcInit => .event (eventWord 0x8#4 0#8) 0#32
  | .crcByte b => .event (eventWord 0x9#4 b) 0#32
  | .encode a s n => .call (Machine.requestFrame a s n)
  | .decode f => .call (Machine.responseBytes f)

/-- `k` bytes of a number, bits 7:0 first. -/
def bytesOfBits : Nat → Nat → List Byte
  | 0, _ => []
  | k + 1, w => BitVec.ofNat 8 (w % 256) :: bytesOfBits k (w / 256)

/-- The stimulus whose bits are `w`, as spec/opcode_table.json numbers them (assumption 8): an event is its 12-bit word
in two bytes (bits 15:12 clear) and then the 32 bits of `now`; anything longer than that, or with bits 15:12 set, is the
bytes of a frame, byte 0 in bits 7:0. -/
def Stimulus.ofBits (nbits w : Nat) : Stimulus :=
  if nbits ≤ 48 && w / 4096 % 16 = 0 then .event (BitVec.ofNat 12 w) (BitVec.ofNat 32 (w / 65536))
  else .call (bytesOfBits ((nbits + 7) / 8) w)

/-- The operation the decoder reads from an opcode-table word. -/
def decodeTableWord (nbits w : Nat) : Option Instr :=
  match decode (Stimulus.ofBits nbits w) with
  | .ok i => some i
  | .error _ => none

end Sys2Proof
end

