-- ==== Sys2Proof/Machine/State.lean ====
section
/-! DEFINITION. The state of one instance (10_state.md R20), its output actions (00_scope.md R8), its stops, and the
state after reset (R38). -/

namespace Sys2Proof.Machine

/-- The four states of the Response Assembler (R22, R150). -/
inductive AsmState where
  /-- no request has been sent since reset, or the last one was rejected -/
  | idle
  /-- a request is outstanding -/
  | accumulating
  /-- a full, structurally valid frame is present -/
  | complete
  /-- structural or checksum validation failed -/
  | failed
  deriving DecidableEq, Repr

/-- The five error kinds (R220). -/
inductive ErrorKind where
  | invalidParameter
  | transportError
  | checksumMismatch
  | frameMismatch
  | timeout
  deriving DecidableEq, Repr

/-- What one poll cycle reports (R8, R236). -/
inductive PollOutcome where
  | success (registers : List Word16)
  | failed (reason : ErrorKind)
  | timeout
  deriving DecidableEq, Repr

/-- The output actions (R8): the frame handed to the transport, a record handed to the reading sink, the error surfaced
to the process. The address of a report is the integer of the abstract record (R236, U10). -/
inductive Output where
  | tx (frame : List Byte)
  | report (ts : Timestamp) (addr : Nat) (outcome : PollOutcome)
  | fatal (error : ErrorKind)
  deriving DecidableEq, Repr

/-- What a call of `ENCODE` or `DECODE` returned (the model's own, assumption 7). -/
inductive CallResult where
  /-- no call yet -/
  | none
  /-- `ENCODE` returned this frame (R130) -/
  | frame (bytes : List Byte)
  /-- `ENCODE` raised InvalidParameter (R131) -/
  | invalidParameter
  /-- `DECODE` judged its bytes so (R155 to R160) -/
  | verdict (v : Verdict)
  /-- `DECODE` with no outstanding request: the bytes are discarded (R153) -/
  | discarded
  deriving DecidableEq, Repr

/-- The AssemblyBuffer: (index, byte) pairs with rising indices; an unlisted index holds no value (R24, R38). -/
abbrev Memory := List Host.Cell

/-- One instance of the block (R20), its configuration (R5, R32, R65) and, last, the model's own three fields. -/
structure State where
  /-- the register of the Checksum Engine unit (R21) -/
  crc : Word16
  /-- the state of the Response Assembler (R22) -/
  asmState : AsmState
  /-- the address of the most recent request sent (R23); no value after reset (R38) -/
  curSlave : Option Byte
  /-- the AssemblyBuffer (R24) -/
  buf : Memory
  /-- the number of valid bytes in `buf` (R25) -/
  bufLen : Nat
  /-- the index of the next address to query (R27) -/
  cursorIdx : Nat
  /-- the timestamp of the last request sent (R29); no value after reset (R38) -/
  lastSendTs : Option Timestamp
  /-- the sticky status flag (R30) -/
  halted : Bool
  /-- the configuration in force, sampled at `RST` (R65, R260) -/
  config : Config
  /-- the configuration inputs as the environment presents them (R32) -/
  configIn : Config
  /-- MODEL'S OWN: what is presented to the block and not yet handled, oldest first (R33, R92; assumption 5) -/
  port : List Stimulus
  /-- MODEL'S OWN: every output action emitted, in order (R34, R59; assumption 6) -/
  trace : List Output
  /-- MODEL'S OWN: the result of the last function call (assumption 7) -/
  callResult : CallResult
  deriving DecidableEq, Repr

/-- The model faults. Every one is safe (the model stops where no run of the spec comes), and none can be reached from
reset (R261). -/
inductive Fault where
  /-- Raised by `TICK`, `RX_BYTE` and `DECODE` when `cur_slave` is read without a value. The spec states this stop: "A model
  must represent "no value" as absent (reading it is a model fault), not as 0" (R38), "reading is a `fault`" (U6). Safe. -/
  | curSlaveAbsent
  /-- Raised by `TICK` when `last_send_ts` is read without a value. The spec states this stop in the same words (R38, U6).
  Safe. -/
  | lastSendTsAbsent
  /-- Raised by `RX_BYTE` when a byte of `buf` without a value is read. The spec states this stop in the same words (R38,
  U6). Safe. -/
  | bufByteAbsent (index : Nat)
  /-- Raised by `RX_BYTE` on an append at index `BUF_DEPTH` or above, which does not exist (R36, R165). Safe. -/
  | bufIndexOutOfRange (index : Nat)
  /-- Raised by `TICK` when `cursor_idx` is outside the list (R7, R278). Safe. -/
  | cursorOutOfRange (index : Nat)
  deriving DecidableEq, Repr

/-- The refusals. Every one is safe: the model gives the input no meaning, as the spec asks. -/
inductive Refusal where
  /-- Raised by `exec` for an instruction without a meaning yet; no arm does. Safe. -/
  | notModelled (mnemonic : String)
  /-- Raised by `step` for a stimulus that is no operation (R80, U4). Safe. -/
  | undecodable (e : DecodeError)
  /-- Raised by `TICK` when it would select from an empty list (R32, U1). Safe. -/
  | emptySlaveList
  /-- Raised by `TICK` when it would select from a list longer than `M_MAX` (R5, D16). Safe. -/
  | slaveListTooLong
  /-- Raised by `TICK` and `RX_BYTE` when the configuration inputs are not those sampled at the last `RST` (R65, U2).
  Safe. -/
  | configurationChanged
  deriving DecidableEq, Repr

/-- The state right after `RST` under the configuration `c` (R38, R260), with nothing presented and nothing emitted. -/
def State.resetWith (c : Config) : State :=
  { crc := crcInitValue
    asmState := .idle
    curSlave := .none
    buf := []
    bufLen := 0
    cursorIdx := 0
    lastSendTs := .none
    halted := false
    config := c
    configIn := c
    port := []
    trace := []
    callResult := .none }

/-- The machine right after reset (R38); the configuration is the one of assumption 2. -/
def State.reset : State := State.resetWith Config.initial

end Sys2Proof.Machine
end

