-- ==== Sys2Proof/Machine/Ops.lean ====
section
/-! DEFINITION. The named operations over the buffer, the registers and the outputs, and the entry of an error
(60_exceptions.md R226 to R231) as one shared operation. -/

namespace Sys2Proof.Machine

/-- One step's answer. -/
abbrev Result := Host.Outcome State Fault Refusal

/-! The AssemblyBuffer (R24, R50). -/

/-- The byte at an index, or no value. -/
def Memory.read : Memory → Nat → Option Byte
  | [], _ => none
  | (x, v) :: t, i => if x = i then some v else Memory.read t i

/-- `MemRead(i, n)` (R7): `n` bytes from index `i`, if all hold a value. -/
def Memory.readRange (m : Memory) : Nat → Nat → Option (List Byte)
  | _, 0 => some []
  | i, n + 1 =>
    match Memory.read m i, Memory.readRange m (i + 1) n with
    | some b, some t => some (b :: t)
    | _, _ => none

/-- `MemWrite(i, 1, b)` (R7). -/
def Memory.write : Memory → Nat → Byte → Memory
  | [], i, b => [(i, b)]
  | (x, v) :: t, i, b =>
    if x < i then (x, v) :: Memory.write t i b
    else if x = i then (i, b) :: t
    else (i, b) :: (x, v) :: t

/-- Indices strictly rise from a lower bound and stay inside the buffer. -/
def Memory.risesFrom : Nat → Memory → Bool
  | _, [] => true
  | lo, (x, _) :: t => lo ≤ x && x < bufDepth && Memory.risesFrom (x + 1) t

/-- The canonical form: strictly rising indices of the index space 0 .. 254 (R36); an unlisted index reads as no value,
so no entry can equal that. -/
def Memory.wf (m : Memory) : Bool := Memory.risesFrom 0 m

/-! Updates of the state. -/

/-- `emit A` (R7, R8). -/
def State.emit (s : State) (a : Output) : State := { s with trace := s.trace ++ [a] }

/-- `buf_len <- 0` (R25): "bytes at index `buf_len` and above hold no value" (R24), so they go with it. -/
def State.clearBuffer (s : State) : State := { s with buf := [], bufLen := 0 }

/-- `asm_state <- S` (R22). -/
def State.setAsm (s : State) (a : AsmState) : State := { s with asmState := a }

/-- The index an `RX_BYTE` appends at (R154). -/
def State.appendIndex (s : State) : Nat := s.bufLen

/-- `MemWrite(buf_len, 1, b); buf_len <- buf_len + 1` (R154). -/
def State.appended (s : State) (b : Byte) : State :=
  { s with buf := Memory.write s.buf s.appendIndex b, bufLen := s.bufLen + 1 }

/-- `cursor_idx <- (cursor_idx + 1) mod M` (R27, R194). -/
def State.advanceCursor (s : State) : State :=
  { s with cursorIdx := (s.cursorIdx + 1) % s.config.slaves.length }

/-- `cur_slave <- a` (R23, R196). -/
def State.setCurSlave (s : State) (a : Byte) : State := { s with curSlave := some a }

/-- `last_send_ts <- now` (R29, R197). -/
def State.setLastSendTs (s : State) (now : Timestamp) : State := { s with lastSendTs := some now }

/-- `crc <- v` (R21). -/
def State.setCrc (s : State) (v : Word16) : State := { s with crc := v }

/-- `halted <- v` (R30). -/
def State.setHalted (s : State) (v : Bool) : State := { s with halted := v }

/-- What a function call returns (assumption 7). -/
def State.setCallResult (s : State) (r : CallResult) : State := { s with callResult := r }

/-- The reset values of R38 and R260; the configuration inputs are sampled. Nothing is emitted. -/
def State.resetBlock (s : State) : State :=
  { s with
    crc := crcInitValue
    asmState := .idle
    curSlave := none
    buf := []
    bufLen := 0
    cursorIdx := 0
    lastSendTs := none
    halted := false
    config := s.configIn }

/-! Reads that need a value: an absent one is a model fault, as R38, U6 and D15 state ("left absent so that a model faults
rather than invents a zero"). -/

/-- Read `cur_slave`. -/
def withCurSlave (s : State) (k : Byte → Result) : Result :=
  match s.curSlave with
  | some a => k a
  | none => .fault .curSlaveAbsent

/-- Read `last_send_ts`. -/
def withLastSendTs (s : State) (k : Timestamp → Result) : Result :=
  match s.lastSendTs with
  | some t => k t
  | none => .fault .lastSendTsAbsent

/-- Read `buf[i]`. -/
def withBufByte (s : State) (i : Nat) (k : Byte → Result) : Result :=
  match Memory.read s.buf i with
  | some b => k b
  | none => .fault (.bufByteAbsent i)

/-- Read `buf[0 .. n-1]`. -/
def withBufBytes (s : State) (n : Nat) (k : List Byte → Result) : Result :=
  match Memory.readRange s.buf 0 n with
  | some bytes => k bytes
  | none => .fault (.bufByteAbsent n)

/-- Append a received byte (R154); the index `BUF_DEPTH` and above does not exist (R36, R165). -/
def withAppended (s : State) (b : Byte) (k : State → Result) : Result :=
  if s.appendIndex < bufDepth then k (s.appended b) else .fault (.bufIndexOutOfRange s.appendIndex)

/-- Use the configuration in force. A run whose configuration inputs change between two `RST` is none of this model's
(R65, U2). -/
def withStableConfig (s : State) (k : Config → Result) : Result :=
  if s.configIn = s.config then k s.config else .refused .configurationChanged

/-! Errors (R220, R226). -/

/-- The entry of an error (R226 to R231): a change of `asm_state` and `buf_len`, or of `halted`, and one output action.
`now` and `addr` are what the report records; `TransportError` records nothing (R220). Nothing is saved and control goes
nowhere. There is no return (R235): the next `TICK` leaves `Failed`, and `RST` leaves `halted`. -/
def raiseError (k : ErrorKind) (now : Timestamp) (addr : Nat) (s : State) : State :=
  match k with
  | .invalidParameter => ((s.setAsm .idle).clearBuffer).emit (.report now addr (.failed .invalidParameter))
  | .transportError => (s.setHalted true).emit (.fatal .transportError)
  | .checksumMismatch => ((s.setAsm .failed).clearBuffer).emit (.report now addr (.failed .checksumMismatch))
  | .frameMismatch => ((s.setAsm .failed).clearBuffer).emit (.report now addr (.failed .frameMismatch))
  | .timeout => s.emit (.report now addr .timeout)

end Sys2Proof.Machine
end

