-- ==== Sys2Proof/Machine/Flags.lean ====
section
/-! DEFINITION. The one flag and the tests that decide what an event does (10_state.md R28, R30, R31): there are no
condition codes. -/

namespace Sys2Proof.Machine

/-- `TICK`, `RX_BYTE` and `TERR` have no effect (R30, R168, R201, R246). -/
def State.pollingHalted (s : State) : Bool := s.halted

/-- A request is outstanding (R150, R191, D28). -/
def State.outstanding (s : State) : Bool := s.asmState = .accumulating

/-- The level output `crc_out` (R34, R106). -/
def State.crcOut (s : State) : Word16 := s.crc

/-- The binary encoding of `asm_state` (R22). -/
def AsmState.code : AsmState → BitVec 2
  | .idle => 0
  | .accumulating => 1
  | .complete => 2
  | .failed => 3

/-- The cause codes (R220); 0 is no error. -/
def ErrorKind.code : ErrorKind → BitVec 3
  | .invalidParameter => 1
  | .transportError => 2
  | .checksumMismatch => 3
  | .frameMismatch => 4
  | .timeout => 5

end Sys2Proof.Machine
end

