-- ==== Sys2Proof/Machine/Operands.lean ====
section
/-! DEFINITION. The operands the operations read beside their own: the selected slave, the elapsed time, the lengths
(43_poll_scheduler.md R192, R194; 42_response_assembler.md R157, R158). -/

namespace Sys2Proof.Machine

/-- The list has a length the block is defined for, `1 <= M <= M_MAX` (R5, R32, U1, D16). -/
def listLegal (c : Config) : Bool := 1 ≤ c.slaves.length && c.slaves.length ≤ slavesMax

/-- `(now - last_send_ts) mod 2^TS_W` (R192): subtraction of 32-bit values wraps. -/
def elapsed (now ts : Timestamp) : Timestamp := now - ts

/-- The timeout is exceeded: strictly greater, unsigned (R192, D5). -/
def timedOut (c : Config) (now ts : Timestamp) : Bool := c.responseTimeoutMs.toNat < (elapsed now ts).toNat

/-- `SLAVES[cursor_idx]` (R194). An empty list and one above `M_MAX` are refused (U1, D16); an index outside the list
does not exist (R7, R278). -/
def withSelectedSlave (c : Config) (s : State) (k : Nat → Result) : Result :=
  if c.slaves.length = 0 then .refused .emptySlaveList
  else if listLegal c = false then .refused .slaveListTooLong
  else match c.slaves[s.cursorIdx]? with
    | some a => k a
    | none => .fault (.cursorOutOfRange s.cursorIdx)

end Sys2Proof.Machine
end

