-- ==== Sys2Proof/Machine/Assembler.lean ====
section
/-! DEFINITION. The Response Assembler: `RX_BYTE` (42_response_assembler.md R152) and `DECODE` as a call (R155 to R160). -/

namespace Sys2Proof.Machine

/-- `fail(reason)` (R161, R227): the report names the polled slave. -/
def failCycle (reason : ErrorKind) (now : Timestamp) (s : State) : Result :=
  withCurSlave s fun cur => .next (raiseError reason now cur.toNat s)

/-- `complete()` (R160, R162): the buffer keeps the frame. -/
def completeCycle (frame : List Byte) (now : Timestamp) (s : State) : State :=
  let r := responseOf frame
  (s.setAsm .complete).emit (.report now r.slaveAddress.toNat (.success r.registers))

/-- The checks of R155 to R159 on the byte just appended; `n` is the length after the append. -/
def judgeByte (c : Config) (now : Timestamp) (s : State) : Result :=
  let n := s.bufLen
  if n = 1 then
    withBufByte s 0 fun b => withCurSlave s fun cur =>
      if b = cur then .next s else failCycle .frameMismatch now s
  else if n = 2 then
    withBufByte s 1 fun b => if b = funcCode then .next s else failCycle .frameMismatch now s
  else if n = 3 then
    withBufByte s 2 fun b =>
      if b.toNat = requestedByteCount c.regCount then .next s else failCycle .frameMismatch now s
  else
    withBufByte s 2 fun byteCount =>
      if n = expectedTotal byteCount then
        withBufBytes s n fun frame =>
          if checksumOk frame then .next (completeCycle frame now s) else failCycle .checksumMismatch now s
      else .next s

/-- `RX_BYTE(b)` (R152): halted (R168), no outstanding request (R153), append (R154), checks. -/
def execRxByte (b : Byte) (now : Timestamp) (s : State) : Result :=
  if s.pollingHalted then .next s
  else if s.outstanding = false then .next s
  else withStableConfig s fun c => withAppended s b fun s1 => judgeByte c now s1

/-- `DECODE` as a call: the verdict on the operand's bytes for the outstanding request; with none outstanding they are
discarded (R153, assumption 7). No state of the block is written. DESIGN CHOICE (assumption 3): the REG_COUNT sampled at
`RST` decides, and a configuration input changed since is not refused here. -/
def execDecode (frame : ResponseFrame) (s : State) : Result :=
  if s.outstanding = false then .next (s.setCallResult .discarded)
  else withCurSlave s fun cur =>
    .next (s.setCallResult (.verdict (decodeResponse cur s.config.regCount (responseBytes frame))))

end Sys2Proof.Machine
end

