-- ==== Sys2Proof/Machine/Checksum.lean ====
section
/-! DEFINITION. The Checksum Engine unit: `CRC_INIT` and `CRC_BYTE` (40_crc.md R104, R105). Neither consults `halted`. -/

namespace Sys2Proof.Machine

/-- `CRC_INIT` (R104). -/
def execCrcInit (s : State) : Result := .next (s.setCrc crcInitValue)

/-- `CRC_BYTE` (R105). -/
def execCrcByte (b : Byte) (s : State) : Result := .next (s.setCrc (crc16Byte s.crc b))

end Sys2Proof.Machine
end

