-- ==== Sys2Proof/Machine/Control.lean ====
section
/-! DEFINITION. `NOP` (60_exceptions.md R245), `RST` (70_reset_and_hazards.md R260), `TERR` (60_exceptions.md R246). -/

namespace Sys2Proof.Machine

/-- `NOP` (R245): no state changes and nothing is emitted. -/
def execNop (s : State) : Result := .next s

/-- `RST` (R260): accepted in every state; nothing is emitted. -/
def execRst (s : State) : Result := .next s.resetBlock

/-- `TERR` (R246). -/
def execTerr (s : State) : Result :=
  if s.pollingHalted then .next s else .next (raiseError .transportError 0#32 0 s)

end Sys2Proof.Machine
end

