-- ==== Sys2Proof/Machine/Encoder.lean ====
section
/-! DEFINITION. `ENCODE` as a call (41_frame_encoder.md R130, R131): no state of the block is read or written; what it
returns stands in `callResult` (assumption 7). -/

namespace Sys2Proof.Machine

/-- `ENCODE(a, s, n)` (R130): the frame, or `InvalidParameter` and no frame at all (R131). -/
def execEncode (a start n : Nat) (s : State) : Result :=
  match encodeRequest a start n with
  | some f => .next (s.setCallResult (.frame f))
  | none => .next (s.setCallResult .invalidParameter)

end Sys2Proof.Machine
end

