-- ==== Sys2Proof/Machine/Scheduler.lean ====
section
/-! DEFINITION. The Poll Scheduler: `TICK` (43_poll_scheduler.md R190). -/

namespace Sys2Proof.Machine

/-- Clear, then send, then record the time (R196, R197, R58). -/
def sendRequest (a : Nat) (frame : List Byte) (now : Timestamp) (s : State) : State :=
  ((((s.clearBuffer).setAsm .accumulating).setCurSlave (BitVec.ofNat 8 a)).emit (.tx frame)).setLastSendTs now

/-- Select and advance (R194), then reject (R195) or send (R196). -/
def attemptRequest (c : Config) (now : Timestamp) (s : State) : Result :=
  withSelectedSlave c s fun a =>
    match encodeRequest a c.startAddr c.regCount with
    | none => .next (raiseError .invalidParameter now a s.advanceCursor)
    | some f => .next (sendRequest a f now s.advanceCursor)

/-- `TICK(now)` (R190): halted (R201); an outstanding request is waited for (R193) or timed out (R198); then the next
request. -/
def execTick (now : Timestamp) (s : State) : Result :=
  if s.pollingHalted then .next s
  else withStableConfig s fun c =>
    if s.outstanding then
      withLastSendTs s fun ts =>
        if timedOut c now ts then
          withCurSlave s fun cur => attemptRequest c now (raiseError .timeout now cur.toNat s)
        else .next s
    else attemptRequest c now s

end Sys2Proof.Machine
end

