-- ==== Sys2Proof/Machine/Dispatch.lean ====
section
/-! DEFINITION. One arm per operation (30_encoding.md R70). -/

namespace Sys2Proof.Machine

def exec (i : Instr) (s : State) : Host.Outcome State Fault Refusal :=
  match i with
  | .nop => Sys2Proof.Machine.execNop s
  | .rst => Sys2Proof.Machine.execRst s
  | .tick now => Sys2Proof.Machine.execTick now s
  | .rxByte b now => Sys2Proof.Machine.execRxByte b now s
  | .terr => Sys2Proof.Machine.execTerr s
  | .crcInit => Sys2Proof.Machine.execCrcInit s
  | .crcByte b => Sys2Proof.Machine.execCrcByte b s
  | .encode a start n => Sys2Proof.Machine.execEncode a start n s
  | .decode frame => Sys2Proof.Machine.execDecode frame s

end Sys2Proof.Machine
end

