-- ==== Sys2Proof/Machine/Step.lean ====
section
/-! DEFINITION. One step: the next event at the port, handled to completion (00_scope.md R10, 20_memory.md R59). -/

namespace Sys2Proof.Machine

/-- Take the oldest stimulus off the port and run it. An empty port is no event, which is `NOP` (R245); a stimulus that
is no operation is refused by name (R80). -/
def step (s : State) : Host.Outcome State Fault Refusal :=
  match s.port with
  | [] => exec .nop s
  | x :: rest =>
    match decode x with
    | .ok i => exec i { s with port := rest }
    | .error e => .refused (.undecodable e)

/-- `s` with the operation of an opcode-table word presented as the next stimulus (assumption 5). -/
def State.withFetchWord (s : State) (nbits w : Nat) : State :=
  { s with port := Stimulus.ofBits nbits w :: s.port }

end Sys2Proof.Machine
end

