-- ==== Sys2Proof/Machine/Port.lean ====
section
/-! DEFINITION. The environment's side: how events are presented (30_encoding.md R92 to R94; 60_exceptions.md R234), the
run of a list of operations, and the packed report (R78). -/

namespace Sys2Proof.Machine

/-- An `RX_BYTE` event. -/
def rxEvent (now : Timestamp) (b : Byte) : Stimulus := .event (eventWord 0x3#4 b) now

/-- `RX @t b0 .. bk` (R93): a chunk is its bytes in order, all with the same `now`. -/
def rxChunk (now : Timestamp) (bytes : List Byte) : List Stimulus := bytes.map (rxEvent now)

/-- `CRC b0 .. bk` (R94). -/
def crcProgram (bytes : List Byte) : List Stimulus :=
  .event (eventWord 0x8#4 0#8) 0#32 :: bytes.map fun b => .event (eventWord 0x9#4 b) 0#32

/-- Stimuli that arrive on separate wires in one clock period (R234). -/
structure Wires where
  rst : Bool
  terr : Bool
  rx : Option Byte
  tick : Bool
  /-- Checksum Engine events, in arrival order: `none` is `CRC_INIT`, `some b` is `CRC_BYTE b` -/
  crc : List (Option Byte)
  now : Timestamp
  deriving DecidableEq, Repr

/-- The order of R234: `RST` cancels the others, then `TERR`, `RX_BYTE`, `TICK`. DESIGN CHOICE (assumption 10): `RST`
also cancels the Checksum Engine events, and without it they come last. -/
def Wires.serialise (w : Wires) : List Stimulus :=
  if w.rst then [.event (eventWord 0x1#4 0#8) w.now]
  else
    (if w.terr then [.event (eventWord 0x4#4 0#8) w.now] else []) ++
    (match w.rx with | some b => [rxEvent w.now b] | none => []) ++
    (if w.tick then [.event (eventWord 0x2#4 0#8) w.now] else []) ++
    w.crc.map fun e =>
      match e with
      | none => .event (eventWord 0x8#4 0#8) w.now
      | some b => .event (eventWord 0x9#4 b) w.now

/-- Present further stimuli, after those already waiting (R33). -/
def State.present (s : State) (l : List Stimulus) : State := { s with port := s.port ++ l }

/-- A list of operations, one after the other (R59). -/
def execAll : List Instr → State → Result
  | [], s => .next s
  | i :: t, s =>
    match exec i s with
    | .next s' => execAll t s'
    | .fault f => .fault f
    | .refused r => .refused r

/-- The packed report record (R78). -/
structure PackedReport where
  ts : Timestamp
  addr : Byte
  outcome : BitVec 2
  reason : BitVec 3
  nregs : Byte
  regs : List Word16
  deriving DecidableEq, Repr

/-- Pack a report with the codes of R78 and R220; the address is truncated to 8 bits (R236). -/
def packReport (ts : Timestamp) (addr : Nat) (o : PollOutcome) : PackedReport :=
  match o with
  | .success regs => ⟨ts, BitVec.ofNat 8 addr, 0, 0, BitVec.ofNat 8 regs.length, regs⟩
  | .failed reason => ⟨ts, BitVec.ofNat 8 addr, 1, reason.code, 0, []⟩
  | .timeout => ⟨ts, BitVec.ofNat 8 addr, 2, 0, 0, []⟩

end Sys2Proof.Machine
end

