-- ==== Sys2Proof/Safety.lean ====
section
/-! DEFINITION. What counts as a safe run: the state invariant of 10_state.md R39, the legal transitions of
42_response_assembler.md R151, and what a sequence of output actions must look like (R196, R200, R202, R236). -/

namespace Sys2Proof.Machine

/-- The configuration inputs are those in force: the environment has held them stable since the last `RST`
(70_reset_and_hazards.md R263 (1), 20_memory.md R65). -/
def State.ConfigStable (s : State) : Prop := s.configIn = s.config

/-- The received bytes `buf[0 .. buf_len-1]`, if all hold a value. -/
def State.received (s : State) : Option (List Byte) := Memory.readRange s.buf 0 s.bufLen

/-- The index an `RX_BYTE` stores its byte at: none when it is ignored (R153, R154, R168). -/
def State.rxStoreIndex (s : State) : Option Nat :=
  if s.pollingHalted then none else if s.outstanding then some s.appendIndex else none

/-- A request to `cur` is outstanding, nothing is halted, and the configuration inputs are those in force. -/
structure Waiting (s : State) (cur : Byte) : Prop where
  running : s.halted = false
  asm : s.asmState = .accumulating
  stable : s.configIn = s.config
  polledSlave : s.curSlave = some cur

/-- No request is outstanding, nothing is halted, the configuration inputs are those in force and have a legal list,
and the cursor selects `a`: a `TICK` will make an attempt on `a` (R191, R194). -/
structure ReadyFor (s : State) (a : Nat) : Prop where
  running : s.halted = false
  asm : s.asmState ≠ .accumulating
  stable : s.configIn = s.config
  list : 1 ≤ s.config.slaves.length ∧ s.config.slaves.length ≤ slavesMax
  selected : s.config.slaves[s.cursorIdx]? = some a

/-- A request to `cur` sent at `ts` is outstanding and its timeout is exceeded at `now`, and the cursor selects `a`
(R192, R194, R198). -/
structure Expired (s : State) (cur : Byte) (ts now : Timestamp) (a : Nat) : Prop where
  waiting : Waiting s cur
  sent : s.lastSendTs = some ts
  exceeded : s.config.responseTimeoutMs.toNat < (now.toNat + 2 ^ 32 - ts.toNat) % 2 ^ 32
  list : 1 ≤ s.config.slaves.length ∧ s.config.slaves.length ≤ slavesMax
  selected : s.config.slaves[s.cursorIdx]? = some a

/-- The header bytes received so far have passed their checks (R39 (4)). -/
structure HeaderOk (s : State) (cur : Byte) : Prop where
  address : 1 ≤ s.bufLen → Memory.read s.buf 0 = some cur
  function : 2 ≤ s.bufLen → Memory.read s.buf 1 = some funcCode
  byteCount : 3 ≤ s.bufLen → ∃ c, Memory.read s.buf 2 = some c ∧ c.toNat = requestedByteCount s.config.regCount

/-- The invariant of R39, with the identity of R23 and the shape of the buffer (R24). -/
structure Inv (s : State) : Prop where
  /-- the configuration inputs have a legal list (R5, U1) -/
  inputList : listLegal s.configIn = true
  /-- so has the configuration in force -/
  list : listLegal s.config = true
  /-- R39 (1) -/
  cursor : s.cursorIdx < s.config.slaves.length
  /-- exactly the bytes at indices below `buf_len` hold a value (R24) -/
  bufExact : s.buf.map Prod.fst = List.range s.bufLen
  /-- R25 -/
  bufLe : s.bufLen ≤ bufDepth
  /-- R39 (2) -/
  restEmpty : s.asmState = .idle ∨ s.asmState = .failed → s.bufLen = 0
  /-- R39 (3) -/
  completeLen : s.asmState = .complete → s.bufLen = 5 + 2 * s.config.regCount
  /-- R39 (3) -/
  completeHeader : s.asmState = .complete → ∃ cur, s.curSlave = some cur ∧ HeaderOk s cur
  /-- R39 (3) -/
  completeResidual : s.asmState = .complete → ∃ frame, s.received = some frame ∧ crc16 frame = 0#16
  /-- R39 (4) -/
  waitLen : s.asmState = .accumulating → s.bufLen < 5 + 2 * s.config.regCount
  /-- R39 (4) -/
  waitCount : s.asmState = .accumulating → 1 ≤ s.config.regCount ∧ s.config.regCount ≤ 125
  /-- R39 (4) -/
  waitHeader : s.asmState = .accumulating →
    ∃ cur, s.curSlave = some cur ∧ 1 ≤ cur.toNat ∧ cur.toNat ≤ 247 ∧ HeaderOk s cur
  /-- R39 (5) -/
  held : s.asmState ≠ .idle → s.curSlave.isSome ∧ s.lastSendTs.isSome
  /-- R23: outside `Idle`, `cur_slave = SLAVES[(cursor_idx + M - 1) mod M]` -/
  polled : s.asmState ≠ .idle →
    s.curSlave.map BitVec.toNat =
      s.config.slaves[(s.cursorIdx + s.config.slaves.length - 1) % s.config.slaves.length]?

/-- The transitions of `asm_state` that R151 lists for an operation, from a state that is not halted, and for `RST` from
any. -/
def asmMayChange (i : Instr) (src dst : AsmState) : Bool :=
  match i with
  | .rst => dst = .idle
  | .tick _ => dst = .idle || dst = .accumulating
  | .rxByte _ _ => dst = src || (src = .accumulating && (dst = .complete || dst = .failed))
  | _ => dst = src

/-- The output actions one operation may emit, in order (R8, R190, R196, R236, R237, D33). -/
def outputShape (i : Instr) (out : List Output) : Bool :=
  match i, out with
  | _, [] => true
  | .tick _, [.tx f] => f.length = 8
  | .tick now, [.report ts _ (.failed .invalidParameter)] => ts = now
  | .tick now, [.report ts _ .timeout, .tx f] => ts = now && f.length = 8
  | .tick now, [.report ts _ .timeout, .report ts' _ (.failed .invalidParameter)] => ts = now && ts' = now
  | .rxByte _ now, [.report ts _ (.success _)] => ts = now
  | .rxByte _ now, [.report ts _ (.failed .frameMismatch)] => ts = now
  | .rxByte _ now, [.report ts _ (.failed .checksumMismatch)] => ts = now
  | .terr, [.fatal .transportError] => true
  | _, _ => false

/-- The slave address an output action shows an attempt on: the address byte of a request, or the address of a rejected
one (R195, R200). -/
def attemptedAddr : Output → Option Nat
  | .tx (a :: _) => some a.toNat
  | .report _ a (.failed .invalidParameter) => some a
  | _ => none

/-- The addresses attempted in a sequence of output actions, in order (R200). -/
def attempted (l : List Output) : List Nat := l.filterMap attemptedAddr

/-- The exchange after one more output action: `some none` when no request is open, `some (some a)` while the request
to `a` is, `none` once the rule of R202 is broken (a second request, or an outcome without a request or for another
slave). -/
def exchangeStep (x : Option (Option Byte)) (o : Output) : Option (Option Byte) :=
  match x, o with
  | some none, .tx (a :: _) => some (some a)
  | some (some a), .report _ addr (.success _) => if addr = a.toNat then some none else none
  | some (some a), .report _ addr .timeout => if addr = a.toNat then some none else none
  | some (some a), .report _ addr (.failed .frameMismatch) => if addr = a.toNat then some none else none
  | some (some a), .report _ addr (.failed .checksumMismatch) => if addr = a.toNat then some none else none
  | some none, .report _ _ (.failed .invalidParameter) => some none
  | some y, .fatal _ => some y
  | _, _ => none

/-- The exchange after a sequence of output actions, from no open request. -/
def exchange (l : List Output) : Option (Option Byte) := l.foldl exchangeStep (some none)

/-- The slave a request is outstanding to, by the registers (R202, D28). -/
def State.openRequest (s : State) : Option Byte := if s.asmState = .accumulating then s.curSlave else none

/-- The invariant of R39, and the trace since reset shows the open request that the registers hold (R202). -/
def ExchangeInv (s : State) : Prop := Inv s ∧ exchange s.trace = some s.openRequest

/-- How many times the error was surfaced to the process (R237). -/
def fatalCount (l : List Output) : Nat := l.countP fun o => match o with | .fatal _ => true | _ => false

/-- No operation of the list is a reset. -/
def NoReset (l : List Instr) : Prop := ∀ i ∈ l, i ≠ .rst

/-- An output action without its timestamp (R164). -/
def Output.untimed : Output → Output
  | .tx f => .tx f
  | .report _ a o => .report 0#32 a o
  | .fatal e => .fatal e

/-- The state without the timestamps in its trace (R164). -/
def State.untimed (s : State) : State := { s with trace := s.trace.map Output.untimed }

/-- The answer without the timestamps in the trace of a next state. -/
def untimedResult : Result → Result
  | .next s => .next s.untimed
  | .fault f => .fault f
  | .refused r => .refused r

/-- Received bytes with their timestamps as `RX_BYTE` operations. -/
def rxAll (l : List (Byte × Timestamp)) : List Instr := l.map fun p => .rxByte p.1 p.2

/-- The bytes that the `CRC_BYTE` operations of a list fold in, in order. -/
def crcBytes : List Instr → List Byte
  | [] => []
  | .crcByte b :: t => b :: crcBytes t
  | _ :: t => crcBytes t

/-- A byte sequence with bit `k` flipped, bit 0 of byte 0 first (R111). -/
def flipBit (bytes : List Byte) (k : Nat) : List Byte :=
  bytes.modify (k / 8) fun b => b ^^^ (1#8 <<< (k % 8))

/-- The bytes of a correct response of a slave with these registers (R75, R169). -/
def goodResponse (slave : Byte) (regs : List Word16) : List Byte :=
  withChecksum (slave :: funcCode :: BitVec.ofNat 8 (requestedByteCount regs.length) :: registerBytes regs)

end Sys2Proof.Machine
end

