-- ==== Sys2Proof/Certificates/Slice0/Obligations.lean ====
section
/-! DEFINITION. The statements for the provers, from the numbered rules of spec/. -/

open Sys2Proof Sys2Proof.Machine

/-! ## Encodings and the step -/

/-- R72: the decoder goes by bits 11:8 alone, for every data byte and timestamp; the nine codes without an operation
are refused by name. -/
def Obligations.EventWordsDecodeByOpcode : Prop :=
  (∀ (op : BitVec 4) (d : Byte), eventWord op d &&& 0xF00#12 = op.setWidth 12 <<< 8) ∧
  ∀ (d : Byte) (now : Timestamp),
    decode (.event (eventWord 0x0#4 d) now) = .ok .nop ∧
    decode (.event (eventWord 0x1#4 d) now) = .ok .rst ∧
    decode (.event (eventWord 0x2#4 d) now) = .ok (.tick now) ∧
    decode (.event (eventWord 0x3#4 d) now) = .ok (.rxByte d now) ∧
    decode (.event (eventWord 0x4#4 d) now) = .ok .terr ∧
    decode (.event (eventWord 0x8#4 d) now) = .ok .crcInit ∧
    decode (.event (eventWord 0x9#4 d) now) = .ok (.crcByte d) ∧
    ∀ op ∈ [0x5#4, 0x6#4, 0x7#4, 0xA#4, 0xB#4, 0xC#4, 0xD#4, 0xE#4, 0xF#4],
      decode (.event (eventWord op d) now) = .error (.reservedOp op)

/-- Words written out from R72, R73 and R75 (95_test_vectors.md 2.5, S1, S2). That the 12-bit event word stands in two
bytes and a missing `now` reads as 0 is the model's choice (assumption 8), and so is that a frame on the port is a call
of its function (assumption 7). -/
def Obligations.WrittenOutWordsDecode : Prop :=
  decodeTableWord 16 0x000 = some .nop ∧ decodeTableWord 16 0x100 = some .rst ∧
  decodeTableWord 16 0x2A7 = some (.tick 0) ∧ decodeTableWord 16 0x3C4 = some (.rxByte 0xC4 0) ∧
  decodeTableWord 16 0x400 = some .terr ∧ decodeTableWord 16 0x800 = some .crcInit ∧
  decodeTableWord 16 0x901 = some (.crcByte 0x01) ∧ decodeTableWord 16 0x500 = none ∧
  decode (.call [0x01, 0x03, 0x00, 0x00, 0x00, 0x02, 0xC4, 0x0B]) = .ok (.encode 1 0 2) ∧
  decode (.call [0x01, 0x03, 0x04, 0x02, 0x71, 0x00, 0x64, 0xAA, 0x7B]) =
    .ok (.decode ⟨0x01, 0x03, 0x04, [0x0271, 0x0064], 0x7BAA⟩)

/-- Decoding the encoding of any well-formed operation gives it back, with every operand (R71 to R75). -/
def Obligations.DecodeEncodeRoundTrip : Prop :=
  ∀ i : Instr, i.wf = true → decode (encode i) = .ok i

/-- R10, R59: a step takes the oldest stimulus off the port and runs the operation it decodes to, and nothing else. -/
def Obligations.StepRunsTheDecodedOperation : Prop :=
  ∀ (s : State) (x : Stimulus) (rest : List Stimulus) (i : Instr),
    s.port = x :: rest → decode x = .ok i → step s = exec i { s with port := rest }

/-- The model's choice (assumption 5): an empty port is no event, which changes nothing (R243, R245). -/
def Obligations.EmptyPortChangesNothing : Prop :=
  ∀ s : State, s.port = [] → step s = .next s

/-- R80: a reserved event code is refused by name. -/
def Obligations.ReservedCodesAreRefused : Prop :=
  ∀ (s : State) (rest : List Stimulus) (op : BitVec 4) (d : Byte) (now : Timestamp),
    op ∈ [0x5#4, 0x6#4, 0x7#4, 0xA#4, 0xB#4, 0xC#4, 0xD#4, 0xE#4, 0xF#4] →
    s.port = .event (eventWord op d) now :: rest →
    step s = .refused (.undecodable (.reservedOp op))

/-- A run of the machine over a port that holds the encodings of operations is those operations one after the other
(R59, R92): same next state, same stop. -/
def Obligations.PortRunIsOperationRun : Prop :=
  ∀ (s : State) (l : List Instr), (∀ i ∈ l, i.wf = true) →
    Host.Core.run Sys2Proof.core l.length ({ s with port := l.map encode } : State) =
      execAll l { s with port := [] }

/-! ## Control: NOP, RST, TERR, the flag, the configuration -/

/-- R245. -/
def Obligations.NopDoesNothing : Prop :=
  (∀ (d : Byte) (now : Timestamp), decode (.event (eventWord 0x0#4 d) now) = .ok .nop) ∧
  ∀ s : State, exec .nop s = .next s

/-- R260: the reset values, from every state; nothing is emitted; the configuration is sampled; and no other operation
leaves the halted state. -/
def Obligations.RstLeavesResetValues : Prop :=
  (∀ (d : Byte) (now : Timestamp), decode (.event (eventWord 0x1#4 d) now) = .ok .rst) ∧
  (∀ s : State, exec .rst s = .next { s with
    crc := 0xFFFF#16, asmState := .idle, curSlave := none, buf := [], bufLen := 0, cursorIdx := 0,
    lastSendTs := none, halted := false, config := s.configIn }) ∧
  ∀ (i : Instr) (s t : State), i ≠ .rst → s.halted = true → exec i s = .next t → t.halted = true

/-- R246: the first transport error halts and is surfaced, and writes nothing else; a second does nothing; the Checksum
Engine port goes on working. -/
def Obligations.TerrHaltsAndSurfacesOnce : Prop :=
  (∀ (d : Byte) (now : Timestamp), decode (.event (eventWord 0x4#4 d) now) = .ok .terr) ∧
  ∀ s : State,
    (s.halted = false →
      exec .terr s = .next { s with halted := true, trace := s.trace ++ [.fatal .transportError] }) ∧
    (s.halted = true → exec .terr s = .next s ∧ exec .crcInit s = .next { s with crc := 0xFFFF#16 } ∧
      ∀ b, exec (.crcByte b) s = .next { s with crc := crc16Byte s.crc b })

/-- R30: the flag is 0 after reset, only `TERR` and `RST` write it, while it is set `TICK`, `RX_BYTE` and `TERR` do
nothing, and the Checksum Engine does not read it. -/
def Obligations.HaltedIsStickyAndStopsPolling : Prop :=
  State.reset.halted = false ∧
  (∀ (i : Instr) (s t : State), exec i s = .next t → i ≠ .terr → i ≠ .rst → t.halted = s.halted) ∧
  (∀ s t : State, exec .terr s = .next t → t.halted = true) ∧
  (∀ s t : State, exec .rst s = .next t → t.halted = false) ∧
  (∀ (s : State) (now : Timestamp) (b : Byte), s.halted = true →
    exec (.tick now) s = .next s ∧ exec (.rxByte b now) s = .next s ∧ exec .terr s = .next s) ∧
  ∀ (s : State) (h : Bool) (b : Byte),
    exec .crcInit { s with halted := h } = .next { s with halted := h, crc := 0xFFFF#16 } ∧
    exec (.crcByte b) { s with halted := h } = .next { s with halted := h, crc := crc16Byte s.crc b }

/-- R65, U2: only `RST` changes the configuration in force, and it takes the inputs; no operation writes the inputs;
and where they differ from the configuration in force a `TICK` or a byte for an outstanding request is refused. -/
def Obligations.ConfigurationIsSampledAtReset : Prop :=
  (∀ (i : Instr) (s t : State), exec i s = .next t →
    t.configIn = s.configIn ∧ (i ≠ .rst → t.config = s.config) ∧ (i = .rst → t.config = s.configIn)) ∧
  ∀ (s : State) (now : Timestamp) (b : Byte), s.halted = false → s.configIn ≠ s.config →
    exec (.tick now) s = .refused .configurationChanged ∧
    (s.asmState = .accumulating → exec (.rxByte b now) s = .refused .configurationChanged)

/-! ## The Checksum Engine -/

/-- R104. -/
def Obligations.CrcInitLoadsInitialValue : Prop :=
  (∀ (d : Byte) (now : Timestamp), decode (.event (eventWord 0x8#4 d) now) = .ok .crcInit) ∧
  ∀ s : State, exec .crcInit s = .next { s with crc := 0xFFFF#16 }

/-- R105, with its two worked values. -/
def Obligations.CrcByteFoldsOneByte : Prop :=
  (∀ (d : Byte) (now : Timestamp), decode (.event (eventWord 0x9#4 d) now) = .ok (.crcByte d)) ∧
  (∀ (b : Byte) (s : State), exec (.crcByte b) s = .next { s with crc := crc16Byte s.crc b }) ∧
  crc16Byte 0xFFFF#16 0x01#8 = 0x807E#16 ∧ crc16Byte 0xFFFF#16 0x00#8 = 0x40BF#16

/-- R106: after `CRC_INIT` and any operations but `CRC_INIT` and `RST`, `crc_out` is the checksum of the bytes folded
in, whatever else was interleaved. -/
def Obligations.CrcOutIsChecksumOfFoldedBytes : Prop :=
  (∀ s : State, s.crcOut = s.crc) ∧
  ∀ (l : List Instr) (s t : State), (∀ i ∈ l, i ≠ .crcInit ∧ i ≠ .rst) →
    execAll (.crcInit :: l) s = .next t → t.crcOut = crc16 (crcBytes l)

/-- R107, R234: the operations outside the Checksum Engine neither read nor write `crc`: with another value in it each
gives the same answer, with that value left in place. -/
def Obligations.PollingIgnoresCrcRegister : Prop :=
  ∀ (i : Instr) (s : State) (v : Word16), i ≠ .rst → i ≠ .crcInit → (∀ b, i ≠ .crcByte b) →
    exec i { s with crc := v } =
      match exec i s with
      | .next t => .next { t with crc := v }
      | .fault f => .fault f
      | .refused r => .refused r

/-- R102. -/
def Obligations.ChecksumFoldsInPieces : Prop :=
  (∀ r, crc16Update r [] = r) ∧
  (∀ r b t, crc16Update r ([b] ++ t) = crc16Update (crc16Byte r b) t) ∧
  ∀ r s t, crc16Update r (s ++ t) = crc16Update (crc16Update r s) t

/-- R108: every entry of the table is eight bit steps on its index, and the table form is `crc16_byte`. -/
def Obligations.TableFormIsCrcByte : Prop :=
  (∀ i, i < 256 → crcTable[i]? = some (iterated crc16Bit 8 (BitVec.ofNat 16 i))) ∧
  ∀ (r : Word16) (b : Byte), crc16ByteTable r b = crc16Byte r b

/-- R109: bit `i` of `crc16_byte(r, b)` is the network's. -/
def Obligations.XorNetworkIsCrcByte : Prop :=
  ∀ (r : Word16) (b : Byte) (i : Nat), i < 16 →
    (crc16Byte r b).getLsbD i =
      crc16NetBit (fun j => r.getLsbD j) (fun j => r.getLsbD j ^^ b.getLsbD j) i

/-- R112: the two bit-serial forms give `crc16_byte`: loading `crc ^ zext_16(b)` and clocking eight times, and feeding
the byte one bit at a time. -/
def Obligations.BitSerialFormIsCrcByte : Prop :=
  ∀ (r : Word16) (b : Byte),
    iterated crc16Bit 8 (r ^^^ b.setWidth 16) = crc16Byte r b ∧ crc16ByteSerial r b = crc16Byte r b

/-- R110: appending the checksum low byte first gives residual zero, that tail is the only one that does, `crc16_byte`
is linear over exclusive OR, and the other byte order does not give zero in general. -/
def Obligations.ChecksumHasZeroResidual : Prop :=
  (∀ s : List Byte, crc16 (s ++ [loByte (crc16 s), hiByte (crc16 s)]) = 0#16) ∧
  (∀ (s : List Byte) (x y : Byte),
    (x = loByte (crc16 s) ∧ y = hiByte (crc16 s)) ↔ crc16 (s ++ [x, y]) = 0#16) ∧
  (∀ (r1 r2 : Word16) (b1 b2 : Byte),
    crc16Byte (r1 ^^^ r2) (b1 ^^^ b2) = crc16Byte r1 b1 ^^^ crc16Byte r2 b2) ∧
  ∃ s : List Byte, crc16 (s ++ [hiByte (crc16 s), loByte (crc16 s)]) ≠ 0#16

/-- R111, the function's part: no single bit flip of a sequence with residual zero keeps it zero. -/
def Obligations.SingleBitFlipChangesResidual : Prop :=
  ∀ (f : List Byte) (k : Nat), crc16 f = 0#16 → k < 8 * f.length → crc16 (flipBit f k) ≠ 0#16

/-! ## The Frame Encoder and the two function calls -/

/-- R130, R131: `encode(a, s, n)` is the frame of legal operands and only of those; otherwise it raises InvalidParameter
and there is no frame. -/
def Obligations.EncodeReturnsFrameOrInvalidParameter : Prop :=
  (∀ a n m : Nat,
    (1 ≤ a ∧ a ≤ 247 ∧ n ≤ 65535 ∧ 1 ≤ m ∧ m ≤ 125 →
      let body : List Byte := [BitVec.ofNat 8 a, 0x03#8, BitVec.ofNat 8 (n / 256), BitVec.ofNat 8 (n % 256),
        BitVec.ofNat 8 (m / 256), BitVec.ofNat 8 (m % 256)]
      encodeRequest a n m = some (body ++ [loByte (crc16 body), hiByte (crc16 body)])) ∧
    (¬ (1 ≤ a ∧ a ≤ 247 ∧ n ≤ 65535 ∧ 1 ≤ m ∧ m ≤ 125) → encodeRequest a n m = none)) ∧
  encodeRequest 1 0 2 = some [0x01, 0x03, 0x00, 0x00, 0x00, 0x02, 0xC4, 0x0B]

/-- `ENCODE` as a call completes on every operand, legal or not, and writes its result and nothing else. That the result
stands in `callResult` is the model's choice (assumption 7). -/
def Obligations.EncodeCallCompletes : Prop :=
  ∀ (a n m : Nat) (s : State),
    (∀ f, encodeRequest a n m = some f → exec (.encode a n m) s = .next { s with callResult := .frame f }) ∧
    (encodeRequest a n m = none → exec (.encode a n m) s = .next { s with callResult := .invalidParameter })

/-- R132, the five properties of every frame that is returned. -/
def Obligations.EncodedFrameProperties : Prop :=
  (∀ (a n m : Nat) (f : List Byte), encodeRequest a n m = some f →
    f.length = 8 ∧
    (f.getD 0 0).toNat = a ∧ f.getD 1 0 = 0x03#8 ∧ (f.getD 2 0).toNat * 256 + (f.getD 3 0).toNat = n ∧
      f.getD 4 0 = 0#8 ∧ (f.getD 5 0).toNat = m ∧
    (f.getD 7 0).toNat * 256 + (f.getD 6 0).toNat = (crc16 (f.take 6)).toNat ∧
    crc16 f = 0#16) ∧
  ∀ (a n m a' n' m' : Nat) (f f' : List Byte), encodeRequest a n m = some f → encodeRequest a' n' m' = some f' →
    (a, n, m) ≠ (a', n', m') → f.take 6 ≠ f'.take 6

/-- `DECODE` with a request outstanding completes with the verdict on its bytes, and it returns its operand as the
accepted ResponseFrame exactly when the polled address, the function code, the byte count, the number of registers and
the checksum are right (R76, R155 to R160). That the verdict stands in `callResult` is the model's choice (assumption 7),
and so is that the sampled REG_COUNT decides and no changed configuration input is refused (assumption 3). -/
def Obligations.DecodeAcceptsExactlyTheCorrectFrames : Prop :=
  ∀ (s : State) (cur : Byte) (f : ResponseFrame), s.asmState = .accumulating → s.curSlave = some cur →
    exec (.decode f) s =
      .next { s with callResult := .verdict (decodeResponse cur s.config.regCount (responseBytes f)) } ∧
    (decodeResponse cur s.config.regCount (responseBytes f) = .accepted f ↔
      f.slaveAddress = cur ∧ f.functionCode = 0x03#8 ∧ f.byteCount.toNat = 2 * s.config.regCount ∧
      f.registers.length = s.config.regCount ∧
      f.checksum = crc16 ((responseBytes f).take (3 + 2 * f.registers.length)))

/-- The model's choice (assumption 7), after R153: with no request outstanding a `DECODE` call discards its bytes. -/
def Obligations.DecodeWithoutRequestDiscards : Prop :=
  ∀ (s : State) (f : ResponseFrame), s.asmState ≠ .accumulating →
    exec (.decode f) s = .next { s with callResult := .discarded }

/-- R130 "No side effects", for `ENCODE`; that a call of `DECODE` has none either, and that what a call returns stands
in a result field, is the model's choice (assumption 7). No register, no byte of the buffer and no output changes. -/
def Obligations.FunctionCallsHaveNoSideEffects : Prop :=
  ∀ (i : Instr) (s t : State), ((∃ a n m, i = .encode a n m) ∨ ∃ f, i = .decode f) → exec i s = .next t →
    t = { s with callResult := t.callResult }

/-! ## The Response Assembler -/

/-- R153, R168. -/
def Obligations.BytesWithoutRequestAreDiscarded : Prop :=
  ∀ (s : State) (b : Byte) (now : Timestamp), s.halted = true ∨ s.asmState ≠ .accumulating →
    exec (.rxByte b now) s = .next s

/-- R155: the first byte of a response must be the polled address. -/
def Obligations.FirstByteMustBePolledAddress : Prop :=
  ∀ (s : State) (cur b : Byte) (now : Timestamp), Waiting s cur → s.bufLen = 0 →
    (b = cur → exec (.rxByte b now) s = .next { s with buf := Memory.write s.buf 0 b, bufLen := 1 }) ∧
    (b ≠ cur → exec (.rxByte b now) s = .next { s with
      asmState := .failed, buf := [], bufLen := 0,
      trace := s.trace ++ [.report now cur.toNat (.failed .frameMismatch)] })

/-- R156: the second byte must be 0x03. -/
def Obligations.SecondByteMustBeFunctionCode : Prop :=
  ∀ (s : State) (cur b : Byte) (now : Timestamp), Waiting s cur → s.bufLen = 1 →
    (b = 0x03#8 → exec (.rxByte b now) s = .next { s with buf := Memory.write s.buf 1 b, bufLen := 2 }) ∧
    (b ≠ 0x03#8 → exec (.rxByte b now) s = .next { s with
      asmState := .failed, buf := [], bufLen := 0,
      trace := s.trace ++ [.report now cur.toNat (.failed .frameMismatch)] })

/-- R157: the third byte must be `2*REG_COUNT`. -/
def Obligations.ThirdByteMustBeByteCount : Prop :=
  ∀ (s : State) (cur b : Byte) (now : Timestamp), Waiting s cur → s.bufLen = 2 →
    (b.toNat = 2 * s.config.regCount →
      exec (.rxByte b now) s = .next { s with buf := Memory.write s.buf 2 b, bufLen := 3 }) ∧
    (b.toNat ≠ 2 * s.config.regCount → exec (.rxByte b now) s = .next { s with
      asmState := .failed, buf := [], bufLen := 0,
      trace := s.trace ++ [.report now cur.toNat (.failed .frameMismatch)] })

/-- R154, R158: between the header and the last byte a byte is appended without any check. -/
def Obligations.DataBytesAreAppendedUnchecked : Prop :=
  ∀ (s : State) (cur b c : Byte) (now : Timestamp), Waiting s cur → 3 ≤ s.bufLen → s.bufLen < 255 →
    Memory.read s.buf 2 = some c → s.bufLen + 1 < 3 + c.toNat + 2 →
    exec (.rxByte b now) s =
      .next { s with buf := Memory.write s.buf s.bufLen b, bufLen := s.bufLen + 1 }

/-- R159 to R162: the last byte decides by the checksum of all bytes before the trailing two; a frame that verifies is
reported with its registers read high byte first and stays in the buffer; one that does not fails the cycle. -/
def Obligations.LastByteDecidesByChecksum : Prop :=
  ∀ (s : State) (cur b c : Byte) (now : Timestamp) (body : List Byte), Waiting s cur → s.bufLen < 255 →
    Memory.read s.buf 2 = some c → s.bufLen + 1 = 3 + c.toNat + 2 → s.received = some body →
    let frame := body ++ [b]
    let n := s.bufLen + 1
    let sum := crc16 (frame.take (n - 2))
    (frame[n - 2]? = some (loByte sum) ∧ frame[n - 1]? = some (hiByte sum) →
      exec (.rxByte b now) s = .next { s with
        asmState := .complete, buf := Memory.write s.buf s.bufLen b, bufLen := n,
        trace := s.trace ++ [.report now (frame.getD 0 0).toNat (.success
          ((List.range (c.toNat / 2)).map fun i => wordOf (frame.getD (3 + 2 * i) 0) (frame.getD (4 + 2 * i) 0)))] }) ∧
    (¬ (frame[n - 2]? = some (loByte sum) ∧ frame[n - 1]? = some (hiByte sum)) →
      exec (.rxByte b now) s = .next { s with
        asmState := .failed, buf := [], bufLen := 0,
        trace := s.trace ++ [.report now cur.toNat (.failed .checksumMismatch)] })

/-- The frame of `RX_BYTE` (R152, R154, R161): which registers it never touches, and every byte of the buffer but the
one appended, unless the cycle fails, which clears the buffer. -/
def Obligations.RxByteFrame : Prop :=
  ∀ (s t : State) (b : Byte) (now : Timestamp), exec (.rxByte b now) s = .next t →
    t.crc = s.crc ∧ t.curSlave = s.curSlave ∧ t.cursorIdx = s.cursorIdx ∧ t.lastSendTs = s.lastSendTs ∧
    t.halted = s.halted ∧ t.config = s.config ∧ t.configIn = s.configIn ∧ t.port = s.port ∧
    t.callResult = s.callResult ∧
    (s.rxStoreIndex = none → t = s) ∧
    ∀ a, s.rxStoreIndex = some a →
      (t.asmState = .failed ∧ t.bufLen = 0 ∧ ∀ x, Memory.read t.buf x = none) ∨
      (t.asmState ≠ .failed ∧ t.bufLen = s.bufLen + 1 ∧ Memory.read t.buf a = some b ∧
        ∀ x, x ≠ a → Memory.read t.buf x = Memory.read s.buf x)

/-- R164, R93: the answer does not depend on how the bytes are cut into chunks, that is on their timestamps, except
for the timestamps in the reports. -/
def Obligations.ChunksDoNotMatter : Prop :=
  (∀ (now : Timestamp) (x y : List Byte), rxChunk now (x ++ y) = rxChunk now x ++ rxChunk now y) ∧
  ∀ (s : State) (l l' : List (Byte × Timestamp)), l.map Prod.fst = l'.map Prod.fst →
    untimedResult (execAll (rxAll l) s) = untimedResult (execAll (rxAll l') s)

/-- R167: a second byte that is not 0x03 ends the cycle at once, and whatever follows is discarded. -/
def Obligations.OtherFunctionCodesFailAtOnce : Prop :=
  ∀ (s : State) (cur f : Byte) (n0 n1 : Timestamp) (rest : List (Byte × Timestamp)),
    Waiting s cur → s.bufLen = 0 → f ≠ 0x03#8 →
    ∃ t, execAll (rxAll ((cur, n0) :: (f, n1) :: rest)) s = .next t ∧ t.asmState = .failed ∧ t.bufLen = 0 ∧
      t.trace = s.trace ++ [.report n1 cur.toNat (.failed .frameMismatch)]

/-- The assembler fed byte by byte is the function `DECODE` over the whole sequence (R152, R158, R166): same verdict,
one report at most, for the polled slave. -/
def Obligations.SerialAssemblyIsDecode : Prop :=
  ∀ (s : State) (cur : Byte) (l : List (Byte × Timestamp)), Inv s → Waiting s cur → s.bufLen = 0 →
    ∃ t, execAll (rxAll l) s = .next t ∧
      match decodeResponse cur s.config.regCount (l.map Prod.fst) with
      | .incomplete => t.asmState = .accumulating ∧ t.received = some (l.map Prod.fst) ∧ t.trace = s.trace
      | .accepted f =>
        t.asmState = .complete ∧ t.received = some ((l.map Prod.fst).take (5 + 2 * s.config.regCount)) ∧
        ∃ ts ∈ l.map Prod.snd, t.trace = s.trace ++ [.report ts cur.toNat (.success f.registers)]
      | .frameMismatch =>
        t.asmState = .failed ∧ t.bufLen = 0 ∧
        ∃ ts ∈ l.map Prod.snd, t.trace = s.trace ++ [.report ts cur.toNat (.failed .frameMismatch)]
      | .checksumMismatch =>
        t.asmState = .failed ∧ t.bufLen = 0 ∧
        ∃ ts ∈ l.map Prod.snd, t.trace = s.trace ++ [.report ts cur.toNat (.failed .checksumMismatch)]

/-- R169, the forward half: a correct response built against the outstanding request, with any timestamps, is accepted
with one report that carries its registers. -/
def Obligations.CorrectResponseIsAccepted : Prop :=
  ∀ (s : State) (cur : Byte) (regs : List Word16) (l : List (Byte × Timestamp)),
    Inv s → Waiting s cur → s.bufLen = 0 → regs.length = s.config.regCount →
    l.map Prod.fst = goodResponse cur regs →
    ∃ t ts, execAll (rxAll l) s = .next t ∧ l.getLast?.map Prod.snd = some ts ∧ t.asmState = .complete ∧
      t.trace = s.trace ++ [.report ts cur.toNat (.success regs)]

/-- R169, the other half, and R111: a correct response with any one bit flipped fails, as FrameMismatch in bytes 0 to 2
and as ChecksumMismatch in the data and checksum bytes; it is never accepted. -/
def Obligations.SingleBitFlipIsNeverAccepted : Prop :=
  ∀ (s : State) (cur : Byte) (regs : List Word16) (k : Nat) (l : List (Byte × Timestamp)),
    Inv s → Waiting s cur → s.bufLen = 0 → regs.length = s.config.regCount →
    k < 8 * (goodResponse cur regs).length → l.map Prod.fst = flipBit (goodResponse cur regs) k →
    ∃ t ts, execAll (rxAll l) s = .next t ∧ ts ∈ l.map Prod.snd ∧ t.asmState = .failed ∧
      t.trace = s.trace ++
        [.report ts cur.toNat (.failed (if k < 24 then .frameMismatch else .checksumMismatch))]

/-! ## The Poll Scheduler -/

/-- R201. -/
def Obligations.TickWhileHaltedDoesNothing : Prop :=
  ∀ (s : State) (now : Timestamp), s.halted = true → exec (.tick now) s = .next s

/-- R192, R193: a tick that finds a request outstanding has no effect exactly while the elapsed time, taken modulo 2^32,
is not above the timeout. -/
def Obligations.TickWaitsExactlyUntilTimeout : Prop :=
  ∀ (s : State) (cur : Byte) (ts now : Timestamp), Waiting s cur → s.lastSendTs = some ts →
    listLegal s.config = true → s.cursorIdx < s.config.slaves.length →
    (exec (.tick now) s = .next s ↔
      (now.toNat + 2 ^ 32 - ts.toNat) % 2 ^ 32 ≤ s.config.responseTimeoutMs.toNat)

/-- R194, R196, R197: with no request outstanding and legal parameters a tick clears the buffer, enters Accumulating,
records slave and time, advances the cursor and sends the frame. -/
def Obligations.TickSendsNextRequest : Prop :=
  ∀ (s : State) (now : Timestamp) (a : Nat), ReadyFor s a → 1 ≤ a → a ≤ 247 → s.config.startAddr ≤ 65535 →
    1 ≤ s.config.regCount → s.config.regCount ≤ 125 →
    exec (.tick now) s = .next { s with
      asmState := .accumulating, buf := [], bufLen := 0, curSlave := some (BitVec.ofNat 8 a),
      cursorIdx := (s.cursorIdx + 1) % s.config.slaves.length, lastSendTs := some now,
      trace := s.trace ++ [.tx (requestFrame a s.config.startAddr s.config.regCount)] }

/-- R198: a tick that finds the timeout exceeded reports it for the old slave first and goes on to the next request;
the partial buffer is gone. -/
def Obligations.TickReportsTimeoutThenSends : Prop :=
  ∀ (s : State) (cur : Byte) (ts now : Timestamp) (a : Nat), Expired s cur ts now a → 1 ≤ a → a ≤ 247 →
    s.config.startAddr ≤ 65535 → 1 ≤ s.config.regCount → s.config.regCount ≤ 125 →
    exec (.tick now) s = .next { s with
      asmState := .accumulating, buf := [], bufLen := 0, curSlave := some (BitVec.ofNat 8 a),
      cursorIdx := (s.cursorIdx + 1) % s.config.slaves.length, lastSendTs := some now,
      trace := s.trace ++ [.report now cur.toNat .timeout,
        .tx (requestFrame a s.config.startAddr s.config.regCount)] }

/-- R195: illegal parameters are reported and not sent; the cursor still advances, the assembler goes to Idle, slave and
time keep their values; a timeout of the previous request is reported first. -/
def Obligations.TickRejectsIllegalParameters : Prop :=
  ∀ (s : State) (now : Timestamp) (a : Nat),
    ¬ (1 ≤ a ∧ a ≤ 247 ∧ s.config.startAddr ≤ 65535 ∧ 1 ≤ s.config.regCount ∧ s.config.regCount ≤ 125) →
    (ReadyFor s a → exec (.tick now) s = .next { s with
      asmState := .idle, buf := [], bufLen := 0, cursorIdx := (s.cursorIdx + 1) % s.config.slaves.length,
      trace := s.trace ++ [.report now a (.failed .invalidParameter)] }) ∧
    ∀ (cur : Byte) (ts : Timestamp), Expired s cur ts now a → exec (.tick now) s = .next { s with
      asmState := .idle, buf := [], bufLen := 0, cursorIdx := (s.cursorIdx + 1) % s.config.slaves.length,
      trace := s.trace ++ [.report now cur.toNat .timeout, .report now a (.failed .invalidParameter)] }

/-- U1 (93_implementation_defined.md), D16 (92_eei_decisions.md): a selection from an empty slave list is refused, and one
from a list longer than M_MAX = 247, whether no request is outstanding or the outstanding one has timed out. That the
refusal comes at the selection is the model's choice (assumption 4). -/
def Obligations.TickRefusesIllegalSlaveList : Prop :=
  ∀ (s : State) (now : Timestamp), s.halted = false → s.configIn = s.config →
    (s.asmState ≠ .accumulating ∨
      ∃ cur ts, s.asmState = .accumulating ∧ s.curSlave = some cur ∧ s.lastSendTs = some ts ∧
        s.config.responseTimeoutMs.toNat < (now.toNat + 2 ^ 32 - ts.toNat) % 2 ^ 32) →
    (s.config.slaves.length = 0 → exec (.tick now) s = .refused .emptySlaveList) ∧
    (247 < s.config.slaves.length → exec (.tick now) s = .refused .slaveListTooLong)

/-- The frame of `TICK` (R190, R193 to R197): a tick that does anything clears the whole buffer and moves the cursor by
one; it writes slave and time exactly when it sends; it touches nothing else. -/
def Obligations.TickFrame : Prop :=
  ∀ (s t : State) (now : Timestamp), exec (.tick now) s = .next t →
    t.crc = s.crc ∧ t.halted = s.halted ∧ t.config = s.config ∧ t.configIn = s.configIn ∧ t.port = s.port ∧
    t.callResult = s.callResult ∧
    (t = s ∨
      (t.bufLen = 0 ∧ (∀ x, Memory.read t.buf x = none) ∧
        t.cursorIdx = (s.cursorIdx + 1) % s.config.slaves.length ∧
        ((t.asmState = .accumulating ∧ t.lastSendTs = some now ∧
            ∃ a, s.config.slaves[s.cursorIdx]? = some a ∧ t.curSlave = some (BitVec.ofNat 8 a)) ∨
         (t.asmState = .idle ∧ t.curSlave = s.curSlave ∧ t.lastSendTs = s.lastSendTs))))

/-! ## Whole-machine rules -/

/-- R8, R196, R236, R237, D33: what each operation may emit and in what order; the trace only grows. `Tx` comes from
`TICK` alone, `Fatal` from `TERR` alone, and no report is Failed(TransportError) or Failed(Timeout). -/
def Obligations.EachOperationEmitsOnlyItsOutputs : Prop :=
  ∀ (i : Instr) (s t : State), exec i s = .next t →
    ∃ out, t.trace = s.trace ++ out ∧ outputShape i out = true

/-- R151: no transition of `asm_state` but those of the table; while halted none but reset. In particular a `TICK` that
is not ignored leaves `Complete` and `Failed`. -/
def Obligations.AssemblerTransitionsAreTheTabulated : Prop :=
  ∀ (i : Instr) (s t : State), exec i s = .next t →
    (s.halted = false ∨ i = .rst → asmMayChange i s.asmState t.asmState = true) ∧
    (s.halted = true → i ≠ .rst → t.asmState = s.asmState)

/-- R38, R39: the invariant holds after reset, under every configuration with a legal list. -/
def Obligations.ResetMeetsInvariant : Prop :=
  (∀ c : Config, listLegal c = true → Inv (State.resetWith c)) ∧ Inv State.reset

/-- R39: every step keeps the invariant, from every state that has it. -/
def Obligations.EveryStepKeepsInvariant : Prop :=
  ∀ s t : State, Inv s → step s = .next t → Inv t

/-- R261: under the invariant, with the configuration held stable, every operation completes: no absent value is read,
no append leaves the buffer, no selection leaves the list. -/
def Obligations.EveryOperationCompletesUnderInvariant : Prop :=
  ∀ (i : Instr) (s : State), Inv s → s.ConfigStable → ∃ t, exec i s = .next t

/-- R36, R50: every step keeps the canonical form of the buffer, and reset has it. -/
def Obligations.BufferStaysCanonical : Prop :=
  Memory.wf State.reset.buf = true ∧
  ∀ s t : State, Memory.wf s.buf = true → step s = .next t → Memory.wf t.buf = true

/-- R165: while a request is outstanding there is room for the next byte, so an append never leaves the buffer. -/
def Obligations.BufferNeverOverflows : Prop :=
  ∀ (s : State) (b : Byte) (now : Timestamp), Inv s → s.asmState = .accumulating →
    s.bufLen ≤ 5 + 2 * s.config.regCount - 1 ∧ 5 + 2 * s.config.regCount - 1 ≤ 254 ∧
    (∀ i, exec (.rxByte b now) s ≠ .fault (.bufIndexOutOfRange i)) ∧
    ∀ t, exec (.rxByte b now) s = .next t → t.bufLen ≤ 255

/-- R200: in every run from reset without a further reset, the attempts visit the list in order from its first position,
wrapping, with no position skipped. -/
def Obligations.AttemptsAreRoundRobin : Prop :=
  ∀ (c : Config) (l : List Instr) (t : State), listLegal c = true → NoReset l →
    execAll l (State.resetWith c) = .next t →
    ∃ k, attempted t.trace = (List.range k).map (fun j => c.slaves.getD (j % c.slaves.length) 0) ∧
      t.cursorIdx = k % c.slaves.length

/-- R202: in every run from reset without a further reset at most one request is open at a time, every outcome closes the
open one and names its slave, and one is open exactly while the assembler is accumulating. -/
def Obligations.OneRequestAtATime : Prop :=
  ∀ (c : Config) (l : List Instr) (t : State), listLegal c = true → NoReset l →
    execAll l (State.resetWith c) = .next t →
    exchange t.trace = some t.openRequest

/-- R200, R202, one operation at a time: every operation but `RST` keeps the invariant together with the agreement of
trace and registers on the open request; and with the cursor inside the list it either attempts nothing and keeps the
cursor, or attempts the slave the cursor selects and moves the cursor on by one, wrapping. -/
def Obligations.EveryOperationKeepsExchangeAndRotation : Prop :=
  ∀ (i : Instr) (s t : State), i ≠ .rst → exec i s = .next t →
    (ExchangeInv s → ExchangeInv t) ∧
    (s.cursorIdx < s.config.slaves.length →
      (attempted t.trace = attempted s.trace ∧ t.cursorIdx = s.cursorIdx) ∨
      ∃ a, s.config.slaves[s.cursorIdx]? = some a ∧ attempted t.trace = attempted s.trace ++ [a] ∧
        t.cursorIdx = (s.cursorIdx + 1) % s.config.slaves.length)

/-- R237: between two resets the transport error is surfaced at most once, and exactly when the block is halted. -/
def Obligations.FatalIsEmittedOncePerReset : Prop :=
  ∀ (c : Config) (l : List Instr) (t : State), NoReset l → execAll l (State.resetWith c) = .next t →
    fatalCount t.trace = if t.halted then 1 else 0

/-! ## Reports and separate wires -/

/-- R78, R220: the packed report and its codes. -/
def Obligations.PackedReportHasItsCodes : Prop :=
  ∀ (ts : Timestamp) (addr : Nat) (regs : List Word16),
    packReport ts addr (.success regs) = ⟨ts, BitVec.ofNat 8 addr, 0, 0, BitVec.ofNat 8 regs.length, regs⟩ ∧
    packReport ts addr (.failed .invalidParameter) = ⟨ts, BitVec.ofNat 8 addr, 1, 1, 0, []⟩ ∧
    packReport ts addr (.failed .checksumMismatch) = ⟨ts, BitVec.ofNat 8 addr, 1, 3, 0, []⟩ ∧
    packReport ts addr (.failed .frameMismatch) = ⟨ts, BitVec.ofNat 8 addr, 1, 4, 0, []⟩ ∧
    packReport ts addr .timeout = ⟨ts, BitVec.ofNat 8 addr, 2, 0, 0, []⟩

/-- R234: whatever coincides on the wires, `RST` is presented alone, and otherwise `TERR` comes before `RX_BYTE` and that
before `TICK`; the Checksum Engine events keep their arrival order. That those come last, and that `RST` cancels them
too, is the model's choice (assumption 10). -/
def Obligations.SimultaneousStimuliAreSerialised : Prop :=
  ∀ w : Wires,
    (w.rst = true → w.serialise.map decode = [.ok .rst]) ∧
    (w.rst = false → w.serialise.map decode =
      (if w.terr then [.ok .terr] else []) ++
      (match w.rx with | some b => [.ok (.rxByte b w.now)] | none => []) ++
      (if w.tick then [.ok (.tick w.now)] else []) ++
      w.crc.map fun e => match e with | none => .ok .crcInit | some b => .ok (.crcByte b))
end

