-- ==== Sys2Proof/Laws/State.lean ====
section
/-! SUPPORT. One lemma per field per update of State, true by rfl, so that no proof unfolds a record update. -/

namespace Sys2Proof.Machine.State
variable (s : State)

@[simp] theorem emit_crc (a : Output) : (s.emit a).crc = s.crc := rfl
@[simp] theorem emit_asmState (a : Output) : (s.emit a).asmState = s.asmState := rfl
@[simp] theorem emit_curSlave (a : Output) : (s.emit a).curSlave = s.curSlave := rfl
@[simp] theorem emit_buf (a : Output) : (s.emit a).buf = s.buf := rfl
@[simp] theorem emit_bufLen (a : Output) : (s.emit a).bufLen = s.bufLen := rfl
@[simp] theorem emit_cursorIdx (a : Output) : (s.emit a).cursorIdx = s.cursorIdx := rfl
@[simp] theorem emit_lastSendTs (a : Output) : (s.emit a).lastSendTs = s.lastSendTs := rfl
@[simp] theorem emit_halted (a : Output) : (s.emit a).halted = s.halted := rfl
@[simp] theorem emit_config (a : Output) : (s.emit a).config = s.config := rfl
@[simp] theorem emit_configIn (a : Output) : (s.emit a).configIn = s.configIn := rfl
@[simp] theorem emit_port (a : Output) : (s.emit a).port = s.port := rfl
@[simp] theorem emit_trace (a : Output) : (s.emit a).trace = s.trace ++ [a] := rfl
@[simp] theorem emit_callResult (a : Output) : (s.emit a).callResult = s.callResult := rfl

@[simp] theorem clearBuffer_crc : (s.clearBuffer).crc = s.crc := rfl
@[simp] theorem clearBuffer_asmState : (s.clearBuffer).asmState = s.asmState := rfl
@[simp] theorem clearBuffer_curSlave : (s.clearBuffer).curSlave = s.curSlave := rfl
@[simp] theorem clearBuffer_buf : (s.clearBuffer).buf = [] := rfl
@[simp] theorem clearBuffer_bufLen : (s.clearBuffer).bufLen = 0 := rfl
@[simp] theorem clearBuffer_cursorIdx : (s.clearBuffer).cursorIdx = s.cursorIdx := rfl
@[simp] theorem clearBuffer_lastSendTs : (s.clearBuffer).lastSendTs = s.lastSendTs := rfl
@[simp] theorem clearBuffer_halted : (s.clearBuffer).halted = s.halted := rfl
@[simp] theorem clearBuffer_config : (s.clearBuffer).config = s.config := rfl
@[simp] theorem clearBuffer_configIn : (s.clearBuffer).configIn = s.configIn := rfl
@[simp] theorem clearBuffer_port : (s.clearBuffer).port = s.port := rfl
@[simp] theorem clearBuffer_trace : (s.clearBuffer).trace = s.trace := rfl
@[simp] theorem clearBuffer_callResult : (s.clearBuffer).callResult = s.callResult := rfl

@[simp] theorem setAsm_crc (a : AsmState) : (s.setAsm a).crc = s.crc := rfl
@[simp] theorem setAsm_asmState (a : AsmState) : (s.setAsm a).asmState = a := rfl
@[simp] theorem setAsm_curSlave (a : AsmState) : (s.setAsm a).curSlave = s.curSlave := rfl
@[simp] theorem setAsm_buf (a : AsmState) : (s.setAsm a).buf = s.buf := rfl
@[simp] theorem setAsm_bufLen (a : AsmState) : (s.setAsm a).bufLen = s.bufLen := rfl
@[simp] theorem setAsm_cursorIdx (a : AsmState) : (s.setAsm a).cursorIdx = s.cursorIdx := rfl
@[simp] theorem setAsm_lastSendTs (a : AsmState) : (s.setAsm a).lastSendTs = s.lastSendTs := rfl
@[simp] theorem setAsm_halted (a : AsmState) : (s.setAsm a).halted = s.halted := rfl
@[simp] theorem setAsm_config (a : AsmState) : (s.setAsm a).config = s.config := rfl
@[simp] theorem setAsm_configIn (a : AsmState) : (s.setAsm a).configIn = s.configIn := rfl
@[simp] theorem setAsm_port (a : AsmState) : (s.setAsm a).port = s.port := rfl
@[simp] theorem setAsm_trace (a : AsmState) : (s.setAsm a).trace = s.trace := rfl
@[simp] theorem setAsm_callResult (a : AsmState) : (s.setAsm a).callResult = s.callResult := rfl

@[simp] theorem appended_crc (b : Byte) : (s.appended b).crc = s.crc := rfl
@[simp] theorem appended_asmState (b : Byte) : (s.appended b).asmState = s.asmState := rfl
@[simp] theorem appended_curSlave (b : Byte) : (s.appended b).curSlave = s.curSlave := rfl
@[simp] theorem appended_buf (b : Byte) : (s.appended b).buf = Memory.write s.buf s.bufLen b := rfl
@[simp] theorem appended_bufLen (b : Byte) : (s.appended b).bufLen = s.bufLen + 1 := rfl
@[simp] theorem appended_cursorIdx (b : Byte) : (s.appended b).cursorIdx = s.cursorIdx := rfl
@[simp] theorem appended_lastSendTs (b : Byte) : (s.appended b).lastSendTs = s.lastSendTs := rfl
@[simp] theorem appended_halted (b : Byte) : (s.appended b).halted = s.halted := rfl
@[simp] theorem appended_config (b : Byte) : (s.appended b).config = s.config := rfl
@[simp] theorem appended_configIn (b : Byte) : (s.appended b).configIn = s.configIn := rfl
@[simp] theorem appended_port (b : Byte) : (s.appended b).port = s.port := rfl
@[simp] theorem appended_trace (b : Byte) : (s.appended b).trace = s.trace := rfl
@[simp] theorem appended_callResult (b : Byte) : (s.appended b).callResult = s.callResult := rfl

@[simp] theorem advanceCursor_crc : (s.advanceCursor).crc = s.crc := rfl
@[simp] theorem advanceCursor_asmState : (s.advanceCursor).asmState = s.asmState := rfl
@[simp] theorem advanceCursor_curSlave : (s.advanceCursor).curSlave = s.curSlave := rfl
@[simp] theorem advanceCursor_buf : (s.advanceCursor).buf = s.buf := rfl
@[simp] theorem advanceCursor_bufLen : (s.advanceCursor).bufLen = s.bufLen := rfl
@[simp] theorem advanceCursor_cursorIdx : (s.advanceCursor).cursorIdx = (s.cursorIdx + 1) % s.config.slaves.length := rfl
@[simp] theorem advanceCursor_lastSendTs : (s.advanceCursor).lastSendTs = s.lastSendTs := rfl
@[simp] theorem advanceCursor_halted : (s.advanceCursor).halted = s.halted := rfl
@[simp] theorem advanceCursor_config : (s.advanceCursor).config = s.config := rfl
@[simp] theorem advanceCursor_configIn : (s.advanceCursor).configIn = s.configIn := rfl
@[simp] theorem advanceCursor_port : (s.advanceCursor).port = s.port := rfl
@[simp] theorem advanceCursor_trace : (s.advanceCursor).trace = s.trace := rfl
@[simp] theorem advanceCursor_callResult : (s.advanceCursor).callResult = s.callResult := rfl

@[simp] theorem setCurSlave_crc (a : Byte) : (s.setCurSlave a).crc = s.crc := rfl
@[simp] theorem setCurSlave_asmState (a : Byte) : (s.setCurSlave a).asmState = s.asmState := rfl
@[simp] theorem setCurSlave_curSlave (a : Byte) : (s.setCurSlave a).curSlave = some a := rfl
@[simp] theorem setCurSlave_buf (a : Byte) : (s.setCurSlave a).buf = s.buf := rfl
@[simp] theorem setCurSlave_bufLen (a : Byte) : (s.setCurSlave a).bufLen = s.bufLen := rfl
@[simp] theorem setCurSlave_cursorIdx (a : Byte) : (s.setCurSlave a).cursorIdx = s.cursorIdx := rfl
@[simp] theorem setCurSlave_lastSendTs (a : Byte) : (s.setCurSlave a).lastSendTs = s.lastSendTs := rfl
@[simp] theorem setCurSlave_halted (a : Byte) : (s.setCurSlave a).halted = s.halted := rfl
@[simp] theorem setCurSlave_config (a : Byte) : (s.setCurSlave a).config = s.config := rfl
@[simp] theorem setCurSlave_configIn (a : Byte) : (s.setCurSlave a).configIn = s.configIn := rfl
@[simp] theorem setCurSlave_port (a : Byte) : (s.setCurSlave a).port = s.port := rfl
@[simp] theorem setCurSlave_trace (a : Byte) : (s.setCurSlave a).trace = s.trace := rfl
@[simp] theorem setCurSlave_callResult (a : Byte) : (s.setCurSlave a).callResult = s.callResult := rfl

@[simp] theorem setLastSendTs_crc (now : Timestamp) : (s.setLastSendTs now).crc = s.crc := rfl
@[simp] theorem setLastSendTs_asmState (now : Timestamp) : (s.setLastSendTs now).asmState = s.asmState := rfl
@[simp] theorem setLastSendTs_curSlave (now : Timestamp) : (s.setLastSendTs now).curSlave = s.curSlave := rfl
@[simp] theorem setLastSendTs_buf (now : Timestamp) : (s.setLastSendTs now).buf = s.buf := rfl
@[simp] theorem setLastSendTs_bufLen (now : Timestamp) : (s.setLastSendTs now).bufLen = s.bufLen := rfl
@[simp] theorem setLastSendTs_cursorIdx (now : Timestamp) : (s.setLastSendTs now).cursorIdx = s.cursorIdx := rfl
@[simp] theorem setLastSendTs_lastSendTs (now : Timestamp) : (s.setLastSendTs now).lastSendTs = some now := rfl
@[simp] theorem setLastSendTs_halted (now : Timestamp) : (s.setLastSendTs now).halted = s.halted := rfl
@[simp] theorem setLastSendTs_config (now : Timestamp) : (s.setLastSendTs now).config = s.config := rfl
@[simp] theorem setLastSendTs_configIn (now : Timestamp) : (s.setLastSendTs now).configIn = s.configIn := rfl
@[simp] theorem setLastSendTs_port (now : Timestamp) : (s.setLastSendTs now).port = s.port := rfl
@[simp] theorem setLastSendTs_trace (now : Timestamp) : (s.setLastSendTs now).trace = s.trace := rfl
@[simp] theorem setLastSendTs_callResult (now : Timestamp) : (s.setLastSendTs now).callResult = s.callResult := rfl

@[simp] theorem setCrc_crc (v : Word16) : (s.setCrc v).crc = v := rfl
@[simp] theorem setCrc_asmState (v : Word16) : (s.setCrc v).asmState = s.asmState := rfl
@[simp] theorem setCrc_curSlave (v : Word16) : (s.setCrc v).curSlave = s.curSlave := rfl
@[simp] theorem setCrc_buf (v : Word16) : (s.setCrc v).buf = s.buf := rfl
@[simp] theorem setCrc_bufLen (v : Word16) : (s.setCrc v).bufLen = s.bufLen := rfl
@[simp] theorem setCrc_cursorIdx (v : Word16) : (s.setCrc v).cursorIdx = s.cursorIdx := rfl
@[simp] theorem setCrc_lastSendTs (v : Word16) : (s.setCrc v).lastSendTs = s.lastSendTs := rfl
@[simp] theorem setCrc_halted (v : Word16) : (s.setCrc v).halted = s.halted := rfl
@[simp] theorem setCrc_config (v : Word16) : (s.setCrc v).config = s.config := rfl
@[simp] theorem setCrc_configIn (v : Word16) : (s.setCrc v).configIn = s.configIn := rfl
@[simp] theorem setCrc_port (v : Word16) : (s.setCrc v).port = s.port := rfl
@[simp] theorem setCrc_trace (v : Word16) : (s.setCrc v).trace = s.trace := rfl
@[simp] theorem setCrc_callResult (v : Word16) : (s.setCrc v).callResult = s.callResult := rfl

@[simp] theorem setHalted_crc (v : Bool) : (s.setHalted v).crc = s.crc := rfl
@[simp] theorem setHalted_asmState (v : Bool) : (s.setHalted v).asmState = s.asmState := rfl
@[simp] theorem setHalted_curSlave (v : Bool) : (s.setHalted v).curSlave = s.curSlave := rfl
@[simp] theorem setHalted_buf (v : Bool) : (s.setHalted v).buf = s.buf := rfl
@[simp] theorem setHalted_bufLen (v : Bool) : (s.setHalted v).bufLen = s.bufLen := rfl
@[simp] theorem setHalted_cursorIdx (v : Bool) : (s.setHalted v).cursorIdx = s.cursorIdx := rfl
@[simp] theorem setHalted_lastSendTs (v : Bool) : (s.setHalted v).lastSendTs = s.lastSendTs := rfl
@[simp] theorem setHalted_halted (v : Bool) : (s.setHalted v).halted = v := rfl
@[simp] theorem setHalted_config (v : Bool) : (s.setHalted v).config = s.config := rfl
@[simp] theorem setHalted_configIn (v : Bool) : (s.setHalted v).configIn = s.configIn := rfl
@[simp] theorem setHalted_port (v : Bool) : (s.setHalted v).port = s.port := rfl
@[simp] theorem setHalted_trace (v : Bool) : (s.setHalted v).trace = s.trace := rfl
@[simp] theorem setHalted_callResult (v : Bool) : (s.setHalted v).callResult = s.callResult := rfl

@[simp] theorem setCallResult_crc (r : CallResult) : (s.setCallResult r).crc = s.crc := rfl
@[simp] theorem setCallResult_asmState (r : CallResult) : (s.setCallResult r).asmState = s.asmState := rfl
@[simp] theorem setCallResult_curSlave (r : CallResult) : (s.setCallResult r).curSlave = s.curSlave := rfl
@[simp] theorem setCallResult_buf (r : CallResult) : (s.setCallResult r).buf = s.buf := rfl
@[simp] theorem setCallResult_bufLen (r : CallResult) : (s.setCallResult r).bufLen = s.bufLen := rfl
@[simp] theorem setCallResult_cursorIdx (r : CallResult) : (s.setCallResult r).cursorIdx = s.cursorIdx := rfl
@[simp] theorem setCallResult_lastSendTs (r : CallResult) : (s.setCallResult r).lastSendTs = s.lastSendTs := rfl
@[simp] theorem setCallResult_halted (r : CallResult) : (s.setCallResult r).halted = s.halted := rfl
@[simp] theorem setCallResult_config (r : CallResult) : (s.setCallResult r).config = s.config := rfl
@[simp] theorem setCallResult_configIn (r : CallResult) : (s.setCallResult r).configIn = s.configIn := rfl
@[simp] theorem setCallResult_port (r : CallResult) : (s.setCallResult r).port = s.port := rfl
@[simp] theorem setCallResult_trace (r : CallResult) : (s.setCallResult r).trace = s.trace := rfl
@[simp] theorem setCallResult_callResult (r : CallResult) : (s.setCallResult r).callResult = r := rfl

@[simp] theorem resetBlock_crc : (s.resetBlock).crc = crcInitValue := rfl
@[simp] theorem resetBlock_asmState : (s.resetBlock).asmState = .idle := rfl
@[simp] theorem resetBlock_curSlave : (s.resetBlock).curSlave = none := rfl
@[simp] theorem resetBlock_buf : (s.resetBlock).buf = [] := rfl
@[simp] theorem resetBlock_bufLen : (s.resetBlock).bufLen = 0 := rfl
@[simp] theorem resetBlock_cursorIdx : (s.resetBlock).cursorIdx = 0 := rfl
@[simp] theorem resetBlock_lastSendTs : (s.resetBlock).lastSendTs = none := rfl
@[simp] theorem resetBlock_halted : (s.resetBlock).halted = false := rfl
@[simp] theorem resetBlock_config : (s.resetBlock).config = s.configIn := rfl
@[simp] theorem resetBlock_configIn : (s.resetBlock).configIn = s.configIn := rfl
@[simp] theorem resetBlock_port : (s.resetBlock).port = s.port := rfl
@[simp] theorem resetBlock_trace : (s.resetBlock).trace = s.trace := rfl
@[simp] theorem resetBlock_callResult : (s.resetBlock).callResult = s.callResult := rfl

@[simp] theorem present_crc (l : List Stimulus) : (s.present l).crc = s.crc := rfl
@[simp] theorem present_asmState (l : List Stimulus) : (s.present l).asmState = s.asmState := rfl
@[simp] theorem present_curSlave (l : List Stimulus) : (s.present l).curSlave = s.curSlave := rfl
@[simp] theorem present_buf (l : List Stimulus) : (s.present l).buf = s.buf := rfl
@[simp] theorem present_bufLen (l : List Stimulus) : (s.present l).bufLen = s.bufLen := rfl
@[simp] theorem present_cursorIdx (l : List Stimulus) : (s.present l).cursorIdx = s.cursorIdx := rfl
@[simp] theorem present_lastSendTs (l : List Stimulus) : (s.present l).lastSendTs = s.lastSendTs := rfl
@[simp] theorem present_halted (l : List Stimulus) : (s.present l).halted = s.halted := rfl
@[simp] theorem present_config (l : List Stimulus) : (s.present l).config = s.config := rfl
@[simp] theorem present_configIn (l : List Stimulus) : (s.present l).configIn = s.configIn := rfl
@[simp] theorem present_port (l : List Stimulus) : (s.present l).port = s.port ++ l := rfl
@[simp] theorem present_trace (l : List Stimulus) : (s.present l).trace = s.trace := rfl
@[simp] theorem present_callResult (l : List Stimulus) : (s.present l).callResult = s.callResult := rfl

@[simp] theorem withFetchWord_crc (nbits w : Nat) : (s.withFetchWord nbits w).crc = s.crc := rfl
@[simp] theorem withFetchWord_asmState (nbits w : Nat) : (s.withFetchWord nbits w).asmState = s.asmState := rfl
@[simp] theorem withFetchWord_curSlave (nbits w : Nat) : (s.withFetchWord nbits w).curSlave = s.curSlave := rfl
@[simp] theorem withFetchWord_buf (nbits w : Nat) : (s.withFetchWord nbits w).buf = s.buf := rfl
@[simp] theorem withFetchWord_bufLen (nbits w : Nat) : (s.withFetchWord nbits w).bufLen = s.bufLen := rfl
@[simp] theorem withFetchWord_cursorIdx (nbits w : Nat) : (s.withFetchWord nbits w).cursorIdx = s.cursorIdx := rfl
@[simp] theorem withFetchWord_lastSendTs (nbits w : Nat) : (s.withFetchWord nbits w).lastSendTs = s.lastSendTs := rfl
@[simp] theorem withFetchWord_halted (nbits w : Nat) : (s.withFetchWord nbits w).halted = s.halted := rfl
@[simp] theorem withFetchWord_config (nbits w : Nat) : (s.withFetchWord nbits w).config = s.config := rfl
@[simp] theorem withFetchWord_configIn (nbits w : Nat) : (s.withFetchWord nbits w).configIn = s.configIn := rfl
@[simp] theorem withFetchWord_port (nbits w : Nat) : (s.withFetchWord nbits w).port = Stimulus.ofBits nbits w :: s.port := rfl
@[simp] theorem withFetchWord_trace (nbits w : Nat) : (s.withFetchWord nbits w).trace = s.trace := rfl
@[simp] theorem withFetchWord_callResult (nbits w : Nat) : (s.withFetchWord nbits w).callResult = s.callResult := rfl

@[simp] theorem resetWith_crc (c : Config) : (resetWith c).crc = crcInitValue := rfl
@[simp] theorem resetWith_asmState (c : Config) : (resetWith c).asmState = .idle := rfl
@[simp] theorem resetWith_curSlave (c : Config) : (resetWith c).curSlave = none := rfl
@[simp] theorem resetWith_buf (c : Config) : (resetWith c).buf = [] := rfl
@[simp] theorem resetWith_bufLen (c : Config) : (resetWith c).bufLen = 0 := rfl
@[simp] theorem resetWith_cursorIdx (c : Config) : (resetWith c).cursorIdx = 0 := rfl
@[simp] theorem resetWith_lastSendTs (c : Config) : (resetWith c).lastSendTs = none := rfl
@[simp] theorem resetWith_halted (c : Config) : (resetWith c).halted = false := rfl
@[simp] theorem resetWith_config (c : Config) : (resetWith c).config = c := rfl
@[simp] theorem resetWith_configIn (c : Config) : (resetWith c).configIn = c := rfl
@[simp] theorem resetWith_port (c : Config) : (resetWith c).port = [] := rfl
@[simp] theorem resetWith_trace (c : Config) : (resetWith c).trace = [] := rfl
@[simp] theorem resetWith_callResult (c : Config) : (resetWith c).callResult = .none := rfl

end Sys2Proof.Machine.State
end

