-- ==== Sys2Proof/Laws/Memory.lean ====
section
/-! SUPPORT. The laws of the AssemblyBuffer: read after write, the canonical form, ranges. -/

namespace Sys2Proof.Machine.Memory

@[simp] theorem read_nil (i : Nat) : read [] i = none := rfl

@[simp] theorem readRange_zero (m : Memory) (i : Nat) : readRange m i 0 = some [] := rfl

theorem read_cons (x : Nat) (v : Byte) (t : Memory) (i : Nat) :
    read ((x, v) :: t) i = if x = i then some v else read t i := rfl

theorem read_write_same (m : Memory) (i : Nat) (b : Byte) : read (write m i b) i = some b := by
  induction m with
  | nil => simp [write, read]
  | cons c t ih =>
    obtain ⟨x, v⟩ := c
    simp only [write]
    split
    · next h => rw [read_cons, if_neg (by omega), ih]
    · split <;> simp [read_cons]

theorem read_write_other (m : Memory) (i j : Nat) (b : Byte) (h : j ≠ i) : read (write m i b) j = read m j := by
  induction m with
  | nil => simp [write, read, Ne.symm h]
  | cons c t ih =>
    obtain ⟨x, v⟩ := c
    simp only [write]
    split
    · simp [read_cons, ih]
    · split
      · next hx => subst hx; simp [read_cons, Ne.symm h]
      · simp [read_cons, Ne.symm h]

/-- A write keeps the canonical form. -/
theorem risesFrom_write (m : Memory) (lo i : Nat) (b : Byte) (h : risesFrom lo m = true) (hlo : lo ≤ i)
    (hi : i < bufDepth) : risesFrom lo (write m i b) = true := by
  induction m generalizing lo with
  | nil => simp [write, risesFrom, hlo, hi]
  | cons c t ih =>
    obtain ⟨x, v⟩ := c
    simp only [risesFrom, Bool.and_eq_true, decide_eq_true_eq] at h
    simp only [write]
    split
    · next hx => simp [risesFrom, h.1, ih (x + 1) h.2 (by omega)]
    · split
      · next hx => subst hx; simp [risesFrom, h.1, h.2]
      · next h1 h2 => simp [risesFrom, hlo, hi, h.1.2, h.2]; omega

theorem wf_write (m : Memory) (i : Nat) (b : Byte) (h : wf m = true) (hi : i < bufDepth) :
    wf (write m i b) = true :=
  risesFrom_write m 0 i b h (Nat.zero_le i) hi

@[simp] theorem wf_nil : wf [] = true := rfl

/-- In canonical form an index is listed once: below the lower bound nothing reads. -/
theorem read_below (m : Memory) (lo i : Nat) (h : risesFrom lo m = true) (hi : i < lo) : read m i = none := by
  induction m generalizing lo with
  | nil => rfl
  | cons c t ih =>
    obtain ⟨x, v⟩ := c
    simp only [risesFrom, Bool.and_eq_true, decide_eq_true_eq] at h
    rw [read_cons, if_neg (by omega), ih (x + 1) h.2 (by omega)]

/-- Appending at an index above every listed one puts the entry last. -/
theorem write_last (m : Memory) (i : Nat) (b : Byte) (h : ∀ c ∈ m, c.1 < i) : write m i b = m ++ [(i, b)] := by
  induction m with
  | nil => rfl
  | cons c t ih =>
    obtain ⟨x, v⟩ := c
    have hx : x < i := h (x, v) (by simp)
    simp [write, hx, ih fun c hc => h c (List.mem_cons_of_mem _ hc)]

theorem readRange_succ (m : Memory) (i n : Nat) :
    readRange m i (n + 1) =
      match read m i, readRange m (i + 1) n with
      | some b, some t => some (b :: t)
      | _, _ => none := rfl

theorem readRange_succ_some (m : Memory) (i n : Nat) (bytes : List Byte) :
    readRange m i (n + 1) = some bytes ↔
      ∃ b t, read m i = some b ∧ readRange m (i + 1) n = some t ∧ bytes = b :: t := by
  rw [readRange_succ]
  cases read m i <;> cases readRange m (i + 1) n <;> simp [eq_comm]

theorem readRange_length (m : Memory) (i n : Nat) (bytes : List Byte) (h : readRange m i n = some bytes) :
    bytes.length = n := by
  induction n generalizing i bytes with
  | zero => simp at h; subst h; rfl
  | succ n ih =>
    obtain ⟨b, t, -, ht, rfl⟩ := (readRange_succ_some m i n bytes).1 h
    simp [ih (i + 1) t ht]

/-- A range of `n` bytes and the next one are a range of `n + 1`. -/
theorem readRange_snoc (m : Memory) (i n : Nat) (bytes : List Byte) (b : Byte) (h : readRange m i n = some bytes)
    (hb : read m (i + n) = some b) : readRange m i (n + 1) = some (bytes ++ [b]) := by
  induction n generalizing i bytes with
  | zero => simp at h hb; subst h; simp [readRange_succ, hb]
  | succ n ih =>
    obtain ⟨c, t, hc, ht, rfl⟩ := (readRange_succ_some m i n bytes).1 h
    have := ih (i + 1) t ht (by rw [Nat.add_assoc, Nat.add_comm 1 n]; exact hb)
    rw [readRange_succ, hc, this]; rfl

/-- A range read sees only its own indices. -/
theorem readRange_congr (m m' : Memory) (i n : Nat) (h : ∀ j, i ≤ j → j < i + n → read m j = read m' j) :
    readRange m i n = readRange m' i n := by
  induction n generalizing i with
  | zero => rfl
  | succ n ih =>
    rw [readRange_succ, readRange_succ, h i (Nat.le_refl i) (by omega), ih (i + 1) fun j h1 h2 => h j (by omega) (by omega)]

/-- The bytes below the written index, then the written byte. -/
theorem readRange_write (m : Memory) (n : Nat) (bytes : List Byte) (b : Byte) (h : readRange m 0 n = some bytes) :
    readRange (write m n b) 0 (n + 1) = some (bytes ++ [b]) := by
  refine readRange_snoc _ 0 n bytes b ?_ (by rw [Nat.zero_add]; exact read_write_same m n b)
  rw [← h]
  exact readRange_congr _ _ 0 n fun j _ hj => read_write_other m n j b (by omega)

/-- Element `j` of a range is the byte read at its index. -/
theorem readRange_getElem (m : Memory) (i n : Nat) (bytes : List Byte) (h : readRange m i n = some bytes) (j : Nat)
    (hj : j < n) : bytes[j]? = read m (i + j) := by
  induction n generalizing i bytes j with
  | zero => omega
  | succ n ih =>
    obtain ⟨b, t, hb, ht, rfl⟩ := (readRange_succ_some m i n bytes).1 h
    cases j with
    | zero => simp [hb]
    | succ j =>
      rw [List.getElem?_cons_succ, ih (i + 1) t ht j (by omega)]
      congr 1; omega

end Sys2Proof.Machine.Memory
end

