-- ==== Sys2Proof/Laws/Ops.lean ====
section
/-! SUPPORT. What each shared operation can do, said once: the reads that need a value, the entry of an error, the
encoder, the selection, and the operations `TICK` and `RX_BYTE` built on them. -/

namespace Sys2Proof.Machine

/-- Two next states are equal answers when they are equal states. -/
theorem next_eq {s t : State} : (Host.Outcome.next s : Result) = .next t ↔ t = s := by
  simp [eq_comm]

/-! Reads that need a value. -/

theorem withCurSlave_next {s t : State} {k : Byte → Result} :
    withCurSlave s k = .next t ↔ ∃ a, s.curSlave = some a ∧ k a = .next t := by
  unfold withCurSlave; cases s.curSlave <;> simp

theorem withLastSendTs_next {s t : State} {k : Timestamp → Result} :
    withLastSendTs s k = .next t ↔ ∃ v, s.lastSendTs = some v ∧ k v = .next t := by
  unfold withLastSendTs; cases s.lastSendTs <;> simp

theorem withBufByte_next {s t : State} {i : Nat} {k : Byte → Result} :
    withBufByte s i k = .next t ↔ ∃ b, Memory.read s.buf i = some b ∧ k b = .next t := by
  unfold withBufByte; cases Memory.read s.buf i <;> simp

theorem withBufBytes_next {s t : State} {n : Nat} {k : List Byte → Result} :
    withBufBytes s n k = .next t ↔ ∃ l, Memory.readRange s.buf 0 n = some l ∧ k l = .next t := by
  unfold withBufBytes; cases Memory.readRange s.buf 0 n <;> simp

theorem withAppended_next {s t : State} {b : Byte} {k : State → Result} :
    withAppended s b k = .next t ↔ s.bufLen < bufDepth ∧ k (s.appended b) = .next t := by
  unfold withAppended State.appendIndex; split <;> simp [*]

theorem withStableConfig_next {s t : State} {k : Config → Result} :
    withStableConfig s k = .next t ↔ s.configIn = s.config ∧ k s.config = .next t := by
  unfold withStableConfig; split <;> simp [*]

theorem withSelectedSlave_next {c : Config} {s t : State} {k : Nat → Result} :
    withSelectedSlave c s k = .next t ↔
      listLegal c = true ∧ ∃ a, c.slaves[s.cursorIdx]? = some a ∧ k a = .next t := by
  unfold withSelectedSlave
  split
  · next h => simp [listLegal, h]
  · split
    · next h => simp [h]
    · next h => cases c.slaves[s.cursorIdx]? <;> simp [Bool.not_eq_false _ ▸ h]

/-! The entry of an error. -/

variable (k : ErrorKind) (now : Timestamp) (addr : Nat) (s : State)

@[simp] theorem raiseError_crc : (raiseError k now addr s).crc = s.crc := by cases k <;> rfl
@[simp] theorem raiseError_curSlave : (raiseError k now addr s).curSlave = s.curSlave := by cases k <;> rfl
@[simp] theorem raiseError_cursorIdx : (raiseError k now addr s).cursorIdx = s.cursorIdx := by cases k <;> rfl
@[simp] theorem raiseError_lastSendTs : (raiseError k now addr s).lastSendTs = s.lastSendTs := by cases k <;> rfl
@[simp] theorem raiseError_config : (raiseError k now addr s).config = s.config := by cases k <;> rfl
@[simp] theorem raiseError_configIn : (raiseError k now addr s).configIn = s.configIn := by cases k <;> rfl
@[simp] theorem raiseError_port : (raiseError k now addr s).port = s.port := by cases k <;> rfl
@[simp] theorem raiseError_callResult : (raiseError k now addr s).callResult = s.callResult := by cases k <;> rfl

/-- Only `TransportError` touches the flag. -/
theorem raiseError_halted (h : k ≠ .transportError) : (raiseError k now addr s).halted = s.halted := by
  cases k <;> first | rfl | exact absurd rfl h

/-! The two functions. -/

theorem encodeRequest_some {a n m : Nat} {f : List Byte} :
    encodeRequest a n m = some f ↔ legalRequest a n m = true ∧ f = requestFrame a n m := by
  unfold encodeRequest; split <;> simp [*, eq_comm]

theorem encodeRequest_none {a n m : Nat} : encodeRequest a n m = none ↔ legalRequest a n m = false := by
  unfold encodeRequest; split <;> simp [*]

theorem legalRequest_iff {a n m : Nat} :
    legalRequest a n m = true ↔ (1 ≤ a ∧ a ≤ 247) ∧ n ≤ 65535 ∧ 1 ≤ m ∧ m ≤ 125 := by
  simp [legalRequest, and_assoc]

@[simp] theorem withChecksum_length (body : List Byte) : (withChecksum body).length = body.length + 2 := by
  simp [withChecksum]

@[simp] theorem requestFrame_length (a n m : Nat) : (requestFrame a n m).length = 8 := by
  simp [requestFrame, requestBody]

@[simp] theorem registerBytes_length (l : List Word16) : (registerBytes l).length = 2 * l.length := by
  induction l with
  | nil => rfl
  | cons v t ih => simp [registerBytes, ih]; omega

@[simp] theorem wordOf_hi_lo (v : Word16) : wordOf (hiByte v) (loByte v) = v := by
  simp only [wordOf, hiByte, loByte]
  ext i hi
  simp only [BitVec.getElem_append, BitVec.getElem_extractLsb']
  split
  · simp [← BitVec.getLsbD_eq_getElem]
  · simp [show 8 + (i - 8) = i by omega, ← BitVec.getLsbD_eq_getElem]

theorem registersOf_registerBytes (l : List Word16) : registersOf (registerBytes l) = l := by
  induction l with
  | nil => rfl
  | cons v t ih => simp [registerBytes, registersOf, ih]

/-! `TICK` and `RX_BYTE`. -/

/-- Everything an attempt can do: reject the selected parameters, or send. -/
theorem attemptRequest_next {c : Config} {now : Timestamp} {s t : State} :
    attemptRequest c now s = .next t ↔
      listLegal c = true ∧ ∃ a, c.slaves[s.cursorIdx]? = some a ∧
        ((legalRequest a c.startAddr c.regCount = false ∧ t = raiseError .invalidParameter now a s.advanceCursor) ∨
         (legalRequest a c.startAddr c.regCount = true ∧
            t = sendRequest a (requestFrame a c.startAddr c.regCount) now s.advanceCursor)) := by
  unfold attemptRequest
  rw [withSelectedSlave_next]
  refine and_congr_right fun _ => exists_congr fun a => and_congr_right fun _ => ?_
  unfold encodeRequest
  cases legalRequest a c.startAddr c.regCount <;> simp [@eq_comm _ t]

/-- Everything a `TICK` can do: be ignored, wait, or close a timed-out cycle and make an attempt. -/
theorem execTick_next {now : Timestamp} {s t : State} :
    execTick now s = .next t ↔
      (s.halted = true ∧ t = s) ∨
      (s.halted = false ∧ s.configIn = s.config ∧
        ((s.asmState ≠ .accumulating ∧ attemptRequest s.config now s = .next t) ∨
         (s.asmState = .accumulating ∧ ∃ ts, s.lastSendTs = some ts ∧
            ((timedOut s.config now ts = false ∧ t = s) ∨
             (timedOut s.config now ts = true ∧ ∃ cur, s.curSlave = some cur ∧
                attemptRequest s.config now (raiseError .timeout now cur.toNat s) = .next t))))) := by
  unfold execTick State.pollingHalted
  cases hh : s.halted
  · simp only [Bool.false_eq_true, if_false, withStableConfig_next, false_and, false_or, true_and]
    refine and_congr_right fun _ => ?_
    unfold State.outstanding
    by_cases ha : s.asmState = .accumulating
    · simp only [ha, decide_true, if_true, withLastSendTs_next, ne_eq, not_true, false_and, false_or, true_and]
      refine exists_congr fun ts => and_congr_right fun _ => ?_
      cases timedOut s.config now ts <;> simp [withCurSlave_next, @eq_comm _ t]
    · simp [ha]
  · simp [@eq_comm _ t]

/-- A failed check (R161): the polled slave is reported. -/
theorem failCycle_next {r : ErrorKind} {now : Timestamp} {s t : State} :
    failCycle r now s = .next t ↔ ∃ cur, s.curSlave = some cur ∧ t = raiseError r now cur.toNat s := by
  simp [failCycle, withCurSlave_next, @eq_comm _ t]

/-- Everything the checks of an appended byte can do: accept it, fail the cycle, or complete the frame. -/
theorem judgeByte_next {c : Config} {now : Timestamp} {s t : State} (h : judgeByte c now s = .next t) :
    t = s ∨
    (∃ cur, s.curSlave = some cur ∧
      (t = raiseError .frameMismatch now cur.toNat s ∨ t = raiseError .checksumMismatch now cur.toNat s)) ∨
    (∃ frame, Memory.readRange s.buf 0 s.bufLen = some frame ∧ checksumOk frame = true ∧
      t = completeCycle frame now s) := by
  unfold judgeByte at h
  simp only at h
  split at h
  · simp only [withBufByte_next, withCurSlave_next] at h
    obtain ⟨b, -, cur, hc, h⟩ := h
    split at h
    · exact .inl (next_eq.1 h)
    · obtain ⟨cur', hc', rfl⟩ := failCycle_next.1 h
      exact .inr (.inl ⟨cur', hc', .inl rfl⟩)
  · split at h
    · simp only [withBufByte_next] at h
      obtain ⟨b, -, h⟩ := h
      split at h
      · exact .inl (next_eq.1 h)
      · obtain ⟨cur', hc', rfl⟩ := failCycle_next.1 h
        exact .inr (.inl ⟨cur', hc', .inl rfl⟩)
    · split at h
      · simp only [withBufByte_next] at h
        obtain ⟨b, -, h⟩ := h
        split at h
        · exact .inl (next_eq.1 h)
        · obtain ⟨cur', hc', rfl⟩ := failCycle_next.1 h
          exact .inr (.inl ⟨cur', hc', .inl rfl⟩)
      · simp only [withBufByte_next] at h
        obtain ⟨b, -, h⟩ := h
        split at h
        · simp only [withBufBytes_next] at h
          obtain ⟨frame, hf, h⟩ := h
          split at h
          · next hck => exact .inr (.inr ⟨frame, hf, hck, next_eq.1 h⟩)
          · obtain ⟨cur', hc', rfl⟩ := failCycle_next.1 h
            exact .inr (.inl ⟨cur', hc', .inr rfl⟩)
        · exact .inl (next_eq.1 h)

/-- Everything an `RX_BYTE` can do: be ignored, or append and judge. -/
theorem execRxByte_next {b : Byte} {now : Timestamp} {s t : State} :
    execRxByte b now s = .next t ↔
      ((s.halted = true ∨ s.asmState ≠ .accumulating) ∧ t = s) ∨
      (s.halted = false ∧ s.asmState = .accumulating ∧ s.configIn = s.config ∧ s.bufLen < bufDepth ∧
        judgeByte s.config now (s.appended b) = .next t) := by
  unfold execRxByte State.pollingHalted State.outstanding
  cases s.halted
  · by_cases ha : s.asmState = .accumulating
    · simp [ha, withStableConfig_next, withAppended_next]
    · simp [ha, @eq_comm _ t]
  · simp [@eq_comm _ t]

end Sys2Proof.Machine
end

