-- ==== Sys2Proof/Laws/PerInstr.lean ====
section
/-! SUPPORT. Statements made per operation. Family `WireShape`: the encoder gives a well-formed operation the format
spec/opcode_table.json gives its row. -/

namespace Sys2Proof.Laws

/-- The operation code of a row (30_encoding.md R72); the two functions have none. -/
def tableOp : Instr → Option (BitVec 4)
  | .nop => some 0x0
  | .rst => some 0x1
  | .tick _ => some 0x2
  | .rxByte _ _ => some 0x3
  | .terr => some 0x4
  | .crcInit => some 0x8
  | .crcByte _ => some 0x9
  | .encode _ _ _ => none
  | .decode _ => none

/-- An event's word has its row's code in bits 11:8; a function's frame has the length of its format (R73, R75). -/
def WireShape.Statement (i : Instr) : Prop :=
  i.wf = true →
    match tableOp i, encode i with
    | some op, .event w _ => eventOp w = op
    | none, .call bytes => bytes.length = 8 ∨ (5 ≤ bytes.length ∧ bytes.length ≤ bufDepth ∧ bytes.length % 2 = 1)
    | _, _ => False

theorem eventOp_eventWord (op : BitVec 4) (d : Byte) : eventOp (eventWord op d) = op := by
  ext i hi
  rw [eventOp, BitVec.getElem_extractLsb']
  exact (BitVec.getLsbD_append (x := op) (y := d)).trans (by simp [BitVec.getLsbD_eq_getElem hi])

theorem eventData_eventWord (op : BitVec 4) (d : Byte) : eventData (eventWord op d) = d := by
  ext i hi
  rw [eventData, BitVec.getElem_extractLsb']
  exact (BitVec.getLsbD_append (x := op) (y := d)).trans (by simp [hi])

theorem WireShape.nop : WireShape.Statement .nop := fun _ => eventOp_eventWord _ _
theorem WireShape.rst : WireShape.Statement .rst := fun _ => eventOp_eventWord _ _
theorem WireShape.tick (now : Timestamp) : WireShape.Statement (.tick now) := fun _ => eventOp_eventWord _ _
theorem WireShape.rxByte (b : Byte) (now : Timestamp) : WireShape.Statement (.rxByte b now) :=
  fun _ => eventOp_eventWord _ _
theorem WireShape.terr : WireShape.Statement .terr := fun _ => eventOp_eventWord _ _
theorem WireShape.crcInit : WireShape.Statement .crcInit := fun _ => eventOp_eventWord _ _
theorem WireShape.crcByte (b : Byte) : WireShape.Statement (.crcByte b) := fun _ => eventOp_eventWord _ _
theorem WireShape.encode (a s n : Nat) : WireShape.Statement (.encode a s n) :=
  fun _ => .inl (Machine.requestFrame_length a s n)
theorem WireShape.decode (frame : ResponseFrame) : WireShape.Statement (.decode frame) := by
  intro h
  refine .inr ?_
  simp only [Instr.wf, ResponseFrame.wf, decide_eq_true_eq] at h
  simp only [Machine.responseBytes, List.length_cons, List.length_append, Machine.registerBytes_length,
    List.length_nil, bufDepth]
  omega

end Sys2Proof.Laws
end

