-- ==== Sys2Proof/Tests/Slice0.lean ====
section
/-! SUPPORT. Tests of the model against values of 95_test_vectors.md, the well-formedness smoke test, and for every
statement of Obligations.lean with hypotheses a state and operands that meet them. -/

namespace Sys2Proof.Tests
open Sys2Proof.Machine

set_option maxRecDepth 20000

/-! ## Small states -/

/-- `SLAVES = [1, 2]`, `START_ADDR = 0`, `REG_COUNT = 2`, `RESPONSE_TIMEOUT_MS = 1000`. -/
def cfg : Config := ⟨[1, 2], 0, 2, 1000⟩

def idle : State := State.resetWith cfg

/-- A request to slave 1 sent at 2000, with these bytes received. -/
def waiting (bytes : List Byte) : State :=
  { idle with
    asmState := .accumulating, curSlave := some 1, cursorIdx := 1, lastSendTs := some 2000
    buf := bytes.zipIdx.map fun p => (p.2, p.1), bufLen := bytes.length }

def haltedState : State := { waiting [1, 3] with halted := true }

/-- The operation a stimulus decodes to. -/
def decoded (x : Stimulus) : Option Instr :=
  match decode x with
  | .ok i => some i
  | .error _ => none

/-- The next state of an answer. -/
def nextOf : Result → Option State
  | .next s => some s
  | _ => none

/-- The outputs of an answer. -/
def outputsOf (r : Result) : Option (List Output) := (nextOf r).map State.trace

/-! ## Well-formedness smoke test -/

theorem test_wf_accepts_bounds :
    (Instr.encode 0 0 0).wf = true ∧ (Instr.encode 255 65535 65535).wf = true ∧
    (Instr.decode ⟨1, 3, 250, List.replicate 125 0, 0⟩).wf = true := by decide
theorem test_wf_refuses_address_256 : (Instr.encode 256 0 2).wf = false := by decide
theorem test_wf_refuses_start_65536 : (Instr.encode 1 65536 2).wf = false := by decide
theorem test_wf_refuses_count_65536 : (Instr.encode 1 0 65536).wf = false := by decide
theorem test_wf_refuses_126_registers : (Instr.decode ⟨1, 3, 252, List.replicate 126 0, 0⟩).wf = false := by decide

/-! ## Decoding: words written out from R72, R73 and R75 (2.5, S1, S2) -/

theorem test_decode_nop : decode (.event 0x0FF 0) = .ok .nop := by rfl
theorem test_decode_rst : decode (.event 0x100 0) = .ok .rst := by rfl
theorem test_decode_tick : decode (.event 0x2A7 2000) = .ok (.tick 2000) := by rfl
theorem test_decode_rxByte : decode (.event 0x3C4 2013) = .ok (.rxByte 0xC4 2013) := by rfl
theorem test_decode_terr : decode (.event 0x400 0) = .ok .terr := by rfl
theorem test_decode_crcInit : decode (.event 0x800 0) = .ok .crcInit := by rfl
theorem test_decode_crcByte : decode (.event 0x901 0) = .ok (.crcByte 0x01) := by rfl
theorem test_decode_reserved : decode (.event 0x5AA 0) = .error (.reservedOp 0x5) := by rfl
/-- S1. -/
theorem test_decode_encode : decoded (.call [0x01, 0x03, 0x00, 0x00, 0x00, 0x02, 0xC4, 0x0B]) = some (.encode 1 0 2) := by
  decide
/-- S2. -/
theorem test_decode_decode : decoded (.call [0x01, 0x03, 0x04, 0x02, 0x71, 0x00, 0x64, 0xAA, 0x7B]) =
    some (.decode ⟨0x01, 0x03, 0x04, [0x0271, 0x0064], 0x7BAA⟩) := by decide
/-- Function code 0x04 (R81). -/
theorem test_decode_other_function :
    decoded (.call [0x01, 0x04, 0x00, 0x00, 0x00, 0x02, 0x71, 0xCB]) = none := by decide
theorem test_encode_rxByte : encode (.rxByte 0xC4 2013) = .event 0x3C4 2013 := by rfl
/-- The same frames as opcode-table words, byte 0 in bits 7:0. -/
theorem test_tableWords : decodeTableWord 16 0x200 = some (.tick 0) ∧
    decodeTableWord 64 0x0BC4020000000301 = some (.encode 1 0 2) ∧
    decodeTableWord 72 0x7BAA64007102040301 = some (.decode ⟨0x01, 0x03, 0x04, [0x0271, 0x0064], 0x7BAA⟩) ∧
    decodeTableWord 16 0xA00 = none := by decide

/-! ## Meanings (V-CRC, V-ENC, V-RX, V-TK, V-EV) -/

theorem test_crc16_check_value : crc16 [0x31, 0x32, 0x33, 0x34, 0x35, 0x36, 0x37, 0x38, 0x39] = 0x4B37 := by decide
theorem test_crcByte : (nextOf (exec (.crcByte 0x56) { haltedState with crc := 0x1234 })).map State.crc = some 0xE993 := by
  decide
theorem test_crcByte_zero : (nextOf (exec (.crcByte 0x00) idle)).map State.crc = some 0x40BF := by decide
theorem test_crcInit : (nextOf (exec .crcInit { idle with crc := 0x0BC4 })).map State.crc = some 0xFFFF := by decide
theorem test_nop : exec .nop haltedState = .next haltedState := by rfl
/-- V-EV-6. -/
theorem test_rst : exec .rst { haltedState with crc := 0 } = .next idle := by rfl
/-- V-EV-2. -/
theorem test_terr : outputsOf (exec .terr (waiting [])) = some [.fatal .transportError] := by decide
/-- V-EV-3. -/
theorem test_terr_again : exec .terr haltedState = .next haltedState := by rfl
/-- V-ENC-1. -/
theorem test_encode_max : (nextOf (exec (.encode 247 65535 125) idle)).map State.callResult =
    some (.frame [0xF7, 0x03, 0xFF, 0xFF, 0x00, 0x7D, 0x91, 0x59]) := by decide
/-- V-ENC-2. -/
theorem test_encode_illegal : (nextOf (exec (.encode 1 65536 2) idle)).map State.callResult =
    some .invalidParameter := by decide
/-- S2. -/
theorem test_decode_accepts : (nextOf (exec (.decode ⟨1, 3, 4, [0x0271, 0x0064], 0x7BAA⟩) (waiting []))).map State.callResult =
    some (.verdict (.accepted ⟨1, 3, 4, [625, 100], 0x7BAA⟩)) := by decide
/-- V-RX-2: valid checksum, wrong slave. -/
theorem test_decode_wrong_slave : (nextOf (exec (.decode ⟨2, 3, 4, [0x0271, 0x0064], 0x7B99⟩) (waiting []))).map State.callResult =
    some (.verdict .frameMismatch) := by decide
/-- The example of R152. -/
theorem test_rxByte_completes :
    (nextOf (exec (.rxByte 0x7B 2021) (waiting [0x01, 0x03, 0x04, 0x02, 0x71, 0x00, 0x64, 0xAA]))).map
      (fun t => (t.asmState, t.bufLen, t.trace)) =
    some (.complete, 9, [.report 2021 1 (.success [625, 100])]) := by decide
/-- V-RX-11: checksum bytes swapped. -/
theorem test_rxByte_swapped_checksum :
    (nextOf (exec (.rxByte 0xAA 8) (waiting [0x01, 0x03, 0x04, 0x02, 0x71, 0x00, 0x64, 0x7B]))).map
      (fun t => (t.asmState, t.bufLen, t.trace)) =
    some (.failed, 0, [.report 8 1 (.failed .checksumMismatch)]) := by decide
/-- V-TK-6: the four bytes are gone. -/
theorem test_tick_timeout :
    nextOf (exec (.tick 3001) (waiting [1, 3, 4, 0])) = some { waiting [] with
      cursorIdx := 0, curSlave := some 2, lastSendTs := some 3001
      trace := [.report 3001 1 .timeout, .tx [0x02, 0x03, 0x00, 0x00, 0x00, 0x02, 0xC4, 0x38]] } := by decide
/-- V-TK-10: elapsed 1000 across the wrap of `now`. -/
theorem test_tick_wraps :
    exec (.tick 744) { waiting [] with lastSendTs := some 4294967040 } =
      .next { waiting [] with lastSendTs := some 4294967040 } := by rfl

/-! ## Witnesses: for every statement with hypotheses, what meets them -/

theorem waiting_Waiting (bytes : List Byte) : Waiting (waiting bytes) 1 := ⟨rfl, rfl, rfl, rfl⟩
theorem idle_ReadyFor : ReadyFor idle 1 := ⟨rfl, by decide, rfl, by decide, rfl⟩
theorem waiting_Expired (bytes : List Byte) : Expired (waiting bytes) 1 2000 3001 2 :=
  ⟨waiting_Waiting bytes, rfl,
    (by decide : cfg.responseTimeoutMs.toNat < ((3001#32).toNat + 2 ^ 32 - (2000#32).toNat) % 2 ^ 32),
    (by decide : 1 ≤ cfg.slaves.length ∧ cfg.slaves.length ≤ slavesMax), rfl⟩

theorem idle_Inv : Inv idle where
  inputList := by decide
  list := by decide
  cursor := by decide
  bufExact := by decide
  bufLe := by decide
  restEmpty := fun _ => rfl
  completeLen := fun h => nomatch h
  completeHeader := fun h => nomatch h
  completeResidual := fun h => nomatch h
  waitLen := fun h => nomatch h
  waitCount := fun h => nomatch h
  waitHeader := fun h => nomatch h
  held := fun h => absurd rfl h
  polled := fun h => absurd rfl h

theorem waiting_Inv : Inv (waiting []) where
  inputList := by decide
  list := by decide
  cursor := by decide
  bufExact := by decide
  bufLe := by decide
  restEmpty := fun _ => rfl
  completeLen := fun h => nomatch h
  completeHeader := fun h => nomatch h
  completeResidual := fun h => nomatch h
  waitLen := by decide
  waitCount := by decide
  waitHeader := fun _ => ⟨1, rfl, by decide, by decide, by constructor <;> intro h <;> exact absurd h (by decide)⟩
  held := by decide
  polled := fun _ => rfl

theorem witness_DecodeEncodeRoundTrip :
    (Instr.encode 247 65535 125).wf = true ∧ (Instr.decode ⟨1, 3, 250, List.replicate 125 0, 0⟩).wf = true ∧
    (Instr.rxByte 0xFF 5).wf = true := by decide
theorem witness_StepRunsTheDecodedOperation :
    ({ idle with port := [.event 0x3C4 7] } : State).port = [.event 0x3C4 7] ∧
    decode (.event 0x3C4 7) = .ok (.rxByte 0xC4 7) := ⟨rfl, rfl⟩
theorem witness_EmptyPortChangesNothing : State.reset.port = [] := rfl
theorem witness_ReservedCodesAreRefused :
    0xF#4 ∈ [0x5#4, 0x6#4, 0x7#4, 0xA#4, 0xB#4, 0xC#4, 0xD#4, 0xE#4, 0xF#4] ∧
    ({ idle with port := [.event (eventWord 0xF#4 1) 0] } : State).port = [.event (eventWord 0xF#4 1) 0] :=
  ⟨by decide, rfl⟩
theorem witness_PortRunIsOperationRun :
    ∀ i ∈ [Instr.tick 9, .encode 1 0 2, .decode ⟨1, 3, 2, [5], 0⟩], i.wf = true := by decide
theorem witness_RstLeavesResetValues :
    Instr.terr ≠ .rst ∧ haltedState.halted = true ∧ exec .terr haltedState = .next haltedState :=
  ⟨by decide, rfl, rfl⟩
theorem witness_TerrHaltsAndSurfacesOnce : idle.halted = false ∧ haltedState.halted = true := ⟨rfl, rfl⟩
theorem witness_HaltedIsStickyAndStopsPolling :
    exec .nop idle = .next idle ∧ Instr.nop ≠ .terr ∧ Instr.nop ≠ .rst ∧
    exec .terr haltedState = .next haltedState ∧ exec .rst haltedState = .next idle ∧ haltedState.halted = true :=
  ⟨rfl, by decide, by decide, rfl, rfl, rfl⟩
theorem witness_ConfigurationIsSampledAtReset :
    exec .nop idle = .next idle ∧ Instr.nop ≠ .rst ∧ exec .rst haltedState = .next idle ∧
    ({ waiting [] with configIn := Config.initial } : State).halted = false ∧
    Config.initial ≠ cfg ∧ (waiting []).asmState = .accumulating :=
  ⟨rfl, by decide, rfl, rfl, by decide, rfl⟩
theorem witness_CrcOutIsChecksumOfFoldedBytes :
    (∀ i ∈ [Instr.crcByte 1, .terr], i ≠ .crcInit ∧ i ≠ .rst) ∧
    nextOf (execAll (.crcInit :: [Instr.crcByte 1, .terr]) idle) =
      some { idle with crc := 0x807E, halted := true, trace := [.fatal .transportError] } := by decide
theorem witness_PollingIgnoresCrcRegister :
    Instr.tick 5 ≠ .rst ∧ Instr.tick 5 ≠ .crcInit ∧ ∀ b, Instr.tick 5 ≠ .crcByte b :=
  ⟨by decide, by decide, fun _ h => nomatch h⟩
theorem witness_XorNetworkIsCrcByte : 15 < 16 ∧ 255 < 256 := by decide
theorem witness_SingleBitFlipChangesResidual : crc16 [0xFF, 0xFF] = 0#16 ∧ 15 < 8 * [(0xFF : Byte), 0xFF].length := by
  decide
theorem witness_EncodeReturnsFrameOrInvalidParameter :
    (1 ≤ 247 ∧ 247 ≤ 247 ∧ 65535 ≤ 65535 ∧ 1 ≤ 125 ∧ 125 ≤ 125) ∧
    ¬ (1 ≤ 248 ∧ 248 ≤ 247 ∧ 0 ≤ 65535 ∧ 1 ≤ 2 ∧ 2 ≤ 125) := by decide
theorem witness_EncodeCallCompletes :
    encodeRequest 1 0 2 = some [0x01, 0x03, 0x00, 0x00, 0x00, 0x02, 0xC4, 0x0B] ∧ encodeRequest 1 0 126 = none := by decide
theorem witness_EncodedFrameProperties :
    encodeRequest 1 0 2 = some [0x01, 0x03, 0x00, 0x00, 0x00, 0x02, 0xC4, 0x0B] ∧
    encodeRequest 2 0 2 = some [0x02, 0x03, 0x00, 0x00, 0x00, 0x02, 0xC4, 0x38] ∧ ((1, 0, 2) : Nat × Nat × Nat) ≠ (2, 0, 2) := by
  decide
theorem witness_DecodeAcceptsExactlyTheCorrectFrames :
    (waiting []).asmState = .accumulating ∧ (waiting []).curSlave = some 1 ∧
    decodeResponse 1 2 (responseBytes ⟨1, 3, 4, [625, 100], 0x7BAA⟩) = .accepted ⟨1, 3, 4, [625, 100], 0x7BAA⟩ := by decide
theorem witness_DecodeWithoutRequestDiscards : idle.asmState ≠ .accumulating := by decide
theorem witness_FunctionCallsHaveNoSideEffects :
    exec (.encode 0 0 2) idle = .next { idle with callResult := .invalidParameter } ∧
    exec (.decode ⟨1, 3, 2, [5], 0⟩) idle = .next { idle with callResult := .discarded } := ⟨rfl, rfl⟩
theorem witness_BytesWithoutRequestAreDiscarded :
    (haltedState.halted = true) ∧ idle.asmState ≠ .accumulating := by decide
theorem witness_FirstByteMustBePolledAddress :
    Waiting (waiting []) 1 ∧ (waiting []).bufLen = 0 ∧ (1 : Byte) = 1 ∧ (2 : Byte) ≠ 1 :=
  ⟨waiting_Waiting [], rfl, rfl, by decide⟩
theorem witness_SecondByteMustBeFunctionCode :
    Waiting (waiting [1]) 1 ∧ (waiting [1]).bufLen = 1 ∧ (0x83 : Byte) ≠ 0x03#8 :=
  ⟨waiting_Waiting [1], rfl, by decide⟩
theorem witness_ThirdByteMustBeByteCount :
    Waiting (waiting [1, 3]) 1 ∧ (waiting [1, 3]).bufLen = 2 ∧ (4#8).toNat = 2 * (waiting [1, 3]).config.regCount ∧
    (6#8).toNat ≠ 2 * (waiting [1, 3]).config.regCount := ⟨waiting_Waiting [1, 3], rfl, by decide, by decide⟩
theorem witness_DataBytesAreAppendedUnchecked :
    Waiting (waiting [1, 3, 4]) 1 ∧ 3 ≤ (waiting [1, 3, 4]).bufLen ∧ (waiting [1, 3, 4]).bufLen < 255 ∧
    Memory.read (waiting [1, 3, 4]).buf 2 = some 4 ∧ (waiting [1, 3, 4]).bufLen + 1 < 3 + (4#8).toNat + 2 :=
  ⟨waiting_Waiting _, by decide, by decide, by decide, by decide⟩
/-- The byte before the last: still no check. -/
theorem witness_DataBytesAreAppendedUnchecked_last :
    (waiting [1, 3, 4, 2, 0x71, 0, 0x64]).bufLen + 1 < 3 + (4#8).toNat + 2 ∧
    Memory.read (waiting [1, 3, 4, 2, 0x71, 0, 0x64]).buf 2 = some 4 := by decide
theorem witness_LastByteDecidesByChecksum :
    let s := waiting [1, 3, 4, 2, 0x71, 0, 0x64, 0xAA]
    Waiting s 1 ∧ s.bufLen < 255 ∧ Memory.read s.buf 2 = some 4 ∧ s.bufLen + 1 = 3 + (4#8).toNat + 2 ∧
    s.received = some [1, 3, 4, 2, 0x71, 0, 0x64, 0xAA] ∧
    loByte (crc16 [1, 3, 4, 2, 0x71, 0, 0x64]) = 0xAA ∧ hiByte (crc16 [1, 3, 4, 2, 0x71, 0, 0x64]) = 0x7B :=
  ⟨waiting_Waiting _, by decide, by decide, by decide, by decide, by decide, by decide⟩
theorem witness_RxByteFrame :
    nextOf (exec (.rxByte 1 7) (waiting [])) = some { waiting [] with buf := [(0, 1)], bufLen := 1 } ∧
    (waiting []).rxStoreIndex = some 0 ∧ idle.rxStoreIndex = none ∧ exec (.rxByte 1 7) idle = .next idle :=
  ⟨by decide, by decide, by decide, rfl⟩
theorem witness_RxByteFrame_fails :
    nextOf (exec (.rxByte 2 7) (waiting [])) =
      some { waiting [] with asmState := .failed, trace := [.report 7 1 (.failed .frameMismatch)] } := by decide
theorem witness_ChunksDoNotMatter :
    ([(1, 5), (3, 5)] : List (Byte × Timestamp)).map Prod.fst =
      ([(1, 5), (3, 9)] : List (Byte × Timestamp)).map Prod.fst := by decide
theorem witness_OtherFunctionCodesFailAtOnce :
    Waiting (waiting []) 1 ∧ (waiting []).bufLen = 0 ∧ (0x83 : Byte) ≠ 0x03#8 := ⟨waiting_Waiting [], rfl, by decide⟩
theorem witness_SerialAssemblyIsDecode :
    Inv (waiting []) ∧ Waiting (waiting []) 1 ∧ (waiting []).bufLen = 0 := ⟨waiting_Inv, waiting_Waiting [], rfl⟩
theorem witness_CorrectResponseIsAccepted :
    Inv (waiting []) ∧ Waiting (waiting []) 1 ∧ (waiting []).bufLen = 0 ∧
    [(625 : Word16), 100].length = (waiting []).config.regCount ∧
    ((goodResponse 1 [625, 100]).map fun b => (b, (7 : Timestamp))).map Prod.fst = goodResponse 1 [625, 100] :=
  ⟨waiting_Inv, waiting_Waiting [], rfl, rfl, by decide⟩
theorem witness_SingleBitFlipIsNeverAccepted :
    Inv (waiting []) ∧ Waiting (waiting []) 1 ∧ (waiting []).bufLen = 0 ∧
    [(625 : Word16), 100].length = (waiting []).config.regCount ∧ 23 < 8 * (goodResponse 1 [625, 100]).length ∧
    71 < 8 * (goodResponse 1 [625, 100]).length ∧
    ((flipBit (goodResponse 1 [625, 100]) 71).map fun b => (b, (7 : Timestamp))).map Prod.fst =
      flipBit (goodResponse 1 [625, 100]) 71 :=
  ⟨waiting_Inv, waiting_Waiting [], rfl, rfl, by decide, by decide, by decide⟩
theorem witness_TickWhileHaltedDoesNothing : haltedState.halted = true := rfl
theorem witness_TickWaitsExactlyUntilTimeout :
    Waiting (waiting []) 1 ∧ (waiting []).lastSendTs = some 2000 ∧ listLegal (waiting []).config = true ∧
    (waiting []).cursorIdx < (waiting []).config.slaves.length ∧
    ((3000#32).toNat + 2 ^ 32 - (2000#32).toNat) % 2 ^ 32 ≤ (waiting []).config.responseTimeoutMs.toNat ∧
    ¬ ((3001#32).toNat + 2 ^ 32 - (2000#32).toNat) % 2 ^ 32 ≤ (waiting []).config.responseTimeoutMs.toNat :=
  ⟨waiting_Waiting [], rfl, by decide, by decide, by decide, by decide⟩
theorem witness_TickSendsNextRequest :
    ReadyFor idle 1 ∧ idle.config.startAddr ≤ 65535 ∧ 1 ≤ idle.config.regCount ∧ idle.config.regCount ≤ 125 :=
  ⟨idle_ReadyFor, by decide, by decide, by decide⟩
theorem witness_TickReportsTimeoutThenSends :
    Expired (waiting [1, 3]) 1 2000 3001 2 ∧ (waiting [1, 3]).config.startAddr ≤ 65535 ∧
    1 ≤ (waiting [1, 3]).config.regCount ∧ (waiting [1, 3]).config.regCount ≤ 125 :=
  ⟨waiting_Expired _, by decide, by decide, by decide⟩
/-- Both clauses, with the address 0 (V-TK-12, V-TK-14). -/
theorem witness_TickRejectsIllegalParameters :
    ReadyFor (State.resetWith ⟨[0, 2], 0, 2, 1000⟩) 0 ∧
    Expired { waiting [] with config := ⟨[1, 0], 0, 2, 1000⟩, configIn := ⟨[1, 0], 0, 2, 1000⟩ } 1 2000 3001 0 ∧
    ¬ (1 ≤ 0 ∧ 0 ≤ 247 ∧ 0 ≤ 65535 ∧ 1 ≤ 2 ∧ 2 ≤ 125) :=
  ⟨⟨rfl, by decide, rfl, by decide, rfl⟩, ⟨⟨rfl, rfl, rfl, rfl⟩, rfl, by decide, by decide, rfl⟩, by decide⟩
/-- Both clauses on both paths; 248 is the first length above the bound. -/
theorem witness_TickRefusesIllegalSlaveList :
    (∀ l : List Nat, (State.resetWith ⟨l, 0, 2, 1000⟩).asmState ≠ .accumulating ∧
      let s : State := { waiting [] with config := ⟨l, 0, 2, 1000⟩, configIn := ⟨l, 0, 2, 1000⟩ }
      s.halted = false ∧ s.configIn = s.config ∧ s.asmState = .accumulating ∧ s.curSlave = some 1 ∧
        s.lastSendTs = some 2000 ∧
        s.config.responseTimeoutMs.toNat < ((3001#32).toNat + 2 ^ 32 - (2000#32).toNat) % 2 ^ 32) ∧
    ([] : List Nat).length = 0 ∧ 247 < (List.replicate 248 1).length :=
  ⟨fun _ => ⟨nofun, rfl, rfl, rfl, rfl, rfl, (by decide : (1000#32).toNat < _)⟩, rfl, by decide⟩
theorem witness_TickFrame :
    nextOf (exec (.tick 2000) idle) = some { idle with
      asmState := .accumulating, curSlave := some 1, cursorIdx := 1, lastSendTs := some 2000
      trace := [.tx [0x01, 0x03, 0x00, 0x00, 0x00, 0x02, 0xC4, 0x0B]] } ∧
    exec (.tick 3000) (waiting []) = .next (waiting []) := ⟨by decide, rfl⟩
theorem witness_EachOperationEmitsOnlyItsOutputs :
    exec .terr idle = .next { idle with halted := true, trace := [.fatal .transportError] } := rfl
theorem witness_AssemblerTransitionsAreTheTabulated :
    exec (.tick 5) haltedState = .next haltedState ∧ haltedState.halted = true ∧ Instr.tick 5 ≠ .rst ∧
    idle.halted = false ∧ (nextOf (exec (.tick 5) { idle with asmState := .failed })).map State.asmState = some .accumulating :=
  ⟨rfl, rfl, by decide, rfl, by decide⟩
theorem witness_ResetMeetsInvariant : listLegal cfg = true := by decide
theorem witness_EveryStepKeepsInvariant :
    Inv idle ∧ step idle = .next idle := ⟨idle_Inv, rfl⟩
theorem witness_EveryOperationCompletesUnderInvariant : Inv (waiting []) ∧ (waiting []).ConfigStable :=
  ⟨waiting_Inv, rfl⟩
theorem witness_BufferStaysCanonical :
    Memory.wf (waiting [1, 3]).buf = true ∧ step (waiting [1, 3]) = .next (waiting [1, 3]) := ⟨by decide, rfl⟩
theorem witness_BufferNeverOverflows :
    Inv (waiting []) ∧ (waiting []).asmState = .accumulating ∧
    nextOf (exec (.rxByte 1 7) (waiting [])) = some { waiting [] with buf := [(0, 1)], bufLen := 1 } :=
  ⟨waiting_Inv, rfl, by decide⟩
/-- For the three statements about runs from reset: two attempts, the first timed out. -/
theorem witness_AttemptsAreRoundRobin :
    listLegal cfg = true ∧ NoReset [.tick 10, .tick 2000] ∧
    (nextOf (execAll [.tick 10, .tick 2000] (State.resetWith cfg))).map (fun t => (t.cursorIdx, t.trace.length)) =
      some (0, 3) := by
  refine ⟨by decide, ?_, by decide⟩
  intro i hi
  simp at hi
  rcases hi with rfl | rfl <;> decide
theorem witness_OneRequestAtATime :
    (nextOf (execAll [.tick 10, .tick 2000] (State.resetWith cfg))).map (fun t => exchange t.trace) =
      some (some (some 2)) := by decide
theorem witness_EveryOperationKeepsExchangeAndRotation :
    ExchangeInv idle ∧ Instr.tick 2000 ≠ .rst ∧ idle.cursorIdx < idle.config.slaves.length ∧
    (nextOf (exec (.tick 2000) idle)).map (fun t => (attempted t.trace, t.cursorIdx, exchange t.trace)) =
      some ([1], 1, some (some 1)) := ⟨⟨idle_Inv, rfl⟩, by decide, by decide, by decide⟩
theorem witness_SimultaneousStimuliAreSerialised :
    Wires.serialise ⟨true, true, some 7, true, [none], 9⟩ = [.event 0x100 9] ∧
    Wires.serialise ⟨false, false, some 7, true, [some 5], 9⟩ = [.event 0x307 9, .event 0x200 9, .event 0x905 9] := by decide
theorem witness_FatalIsEmittedOncePerReset :
    NoReset [.terr, .terr] ∧
    execAll [.terr, .terr] idle = .next { idle with halted := true, trace := [.fatal .transportError] } :=
  ⟨by intro i hi; simp at hi; subst hi; decide, rfl⟩

end Sys2Proof.Tests
end

/-! Proofs, family 00_scope.md: the outputs of each operation (R8) and the step (R10, R59). -/

namespace Sys2Proof.Machine

/-! What the shared operations append to the trace. -/

/-- The output action that surfaces an error (R220, R236, R237). -/
def errorOutput (k : ErrorKind) (now : Timestamp) (addr : Nat) : Output :=
  match k with
  | .transportError => .fatal .transportError
  | .timeout => .report now addr .timeout
  | k => .report now addr (.failed k)

@[simp] theorem raiseError_trace (k : ErrorKind) (now : Timestamp) (addr : Nat) (s : State) :
    (raiseError k now addr s).trace = s.trace ++ [errorOutput k now addr] := by
  cases k <;> rfl

@[simp] theorem sendRequest_trace (a : Nat) (frame : List Byte) (now : Timestamp) (s : State) :
    (sendRequest a frame now s).trace = s.trace ++ [.tx frame] := rfl

@[simp] theorem completeCycle_trace (frame : List Byte) (now : Timestamp) (s : State) :
    (completeCycle frame now s).trace = s.trace ++
      [.report now (responseOf frame).slaveAddress.toNat (.success (responseOf frame).registers)] := rfl

/-- An attempt on the selected slave emits the rejection of its parameters or their request frame, and nothing else
(R195, R196). -/
theorem attemptRequest_trace {c : Config} {now : Timestamp} {s t : State} (h : attemptRequest c now s = .next t) :
    ∃ a, c.slaves[s.cursorIdx]? = some a ∧
      ((legalRequest a c.startAddr c.regCount = false ∧
          t.trace = s.trace ++ [errorOutput .invalidParameter now a]) ∨
       (legalRequest a c.startAddr c.regCount = true ∧
          t.trace = s.trace ++ [.tx (requestFrame a c.startAddr c.regCount)])) := by
  obtain ⟨-, a, ha, ⟨hl, rfl⟩ | ⟨hl, rfl⟩⟩ := attemptRequest_next.1 h
  · exact ⟨a, ha, .inl ⟨hl, by simp⟩⟩
  · exact ⟨a, ha, .inr ⟨hl, by simp⟩⟩

/-- Everything a `TERR` can do: be ignored, or raise the error (R246). -/
theorem execTerr_next {s t : State} :
    execTerr s = .next t ↔
      (s.halted = true ∧ t = s) ∨ (s.halted = false ∧ t = raiseError .transportError 0#32 0 s) := by
  unfold execTerr State.pollingHalted
  cases s.halted <;> simp [@eq_comm _ t]

/-! The function calls write their result and nothing else. -/

theorem execEncode_next {a start n : Nat} {s t : State} (h : execEncode a start n s = .next t) :
    ∃ r, t = s.setCallResult r := by
  unfold execEncode at h
  split at h <;> exact ⟨_, next_eq.1 h⟩

theorem execDecode_next {frame : ResponseFrame} {s t : State} (h : execDecode frame s = .next t) :
    ∃ r, t = s.setCallResult r := by
  unfold execDecode at h
  split at h
  · exact ⟨_, next_eq.1 h⟩
  · obtain ⟨cur, -, h⟩ := withCurSlave_next.1 h
    exact ⟨_, next_eq.1 h⟩

/-! The operations one by one, against `outputShape`. -/

/-- The trace grew at its end by what `i` may emit. -/
def EmitsShape (i : Instr) (s t : State) : Prop :=
  ∃ out, t.trace = s.trace ++ out ∧ outputShape i out = true

/-- An operation that leaves the trace as it is emits a permitted output: nothing. -/
theorem emitsShape_of_trace_eq {i : Instr} {s t : State} (h : t.trace = s.trace) : EmitsShape i s t :=
  ⟨[], by simp [h], by cases i <;> rfl⟩

/-- A `TICK` makes its attempt alone, or after the report of a timeout (R198). -/
theorem execTick_emitsShape {now : Timestamp} {s t : State} (h : execTick now s = .next t) :
    EmitsShape (.tick now) s t := by
  obtain ⟨-, rfl⟩ | ⟨-, -, ⟨-, h⟩ | ⟨-, ts, -, ⟨-, rfl⟩ | ⟨-, cur, -, h⟩⟩⟩ := execTick_next.1 h
  case inl => exact emitsShape_of_trace_eq rfl
  case inr.inl =>
    obtain ⟨a, -, ⟨-, ht⟩ | ⟨-, ht⟩⟩ := attemptRequest_trace h
    · exact ⟨_, ht, by simp [errorOutput, outputShape]⟩
    · exact ⟨_, ht, by simp [outputShape]⟩
  case inr.inr.inl => exact emitsShape_of_trace_eq rfl
  case inr.inr.inr =>
    obtain ⟨a, -, ⟨-, ht⟩ | ⟨-, ht⟩⟩ := attemptRequest_trace h
    all_goals
      rw [raiseError_trace, List.append_assoc] at ht
      exact ⟨_, ht, by simp [errorOutput, outputShape]⟩

/-- An `RX_BYTE` reports at most the end of its cycle (R161, R162). -/
theorem execRxByte_emitsShape {b : Byte} {now : Timestamp} {s t : State} (h : execRxByte b now s = .next t) :
    EmitsShape (.rxByte b now) s t := by
  obtain ⟨-, rfl⟩ | ⟨-, -, -, -, h⟩ := execRxByte_next.1 h
  · exact emitsShape_of_trace_eq rfl
  · obtain rfl | ⟨cur, -, rfl | rfl⟩ | ⟨frame, -, -, rfl⟩ := judgeByte_next h
    · exact emitsShape_of_trace_eq (by simp)
    · exact ⟨_, raiseError_trace .., by simp [errorOutput, outputShape]⟩
    · exact ⟨_, raiseError_trace .., by simp [errorOutput, outputShape]⟩
    · exact ⟨_, completeCycle_trace .., by simp [outputShape]⟩

/-- A `TERR` surfaces the error unless already halted (R246). -/
theorem execTerr_emitsShape {s t : State} (h : execTerr s = .next t) : EmitsShape .terr s t := by
  obtain ⟨-, rfl⟩ | ⟨-, rfl⟩ := execTerr_next.1 h
  · exact emitsShape_of_trace_eq rfl
  · exact ⟨_, raiseError_trace .., rfl⟩

/-- R8: whatever operation runs, it emits what its kind may emit. -/
theorem exec_emitsShape {i : Instr} {s t : State} (h : exec i s = .next t) : EmitsShape i s t := by
  cases i with
  | nop => obtain rfl := next_eq.1 h; exact emitsShape_of_trace_eq rfl
  | rst => obtain rfl := next_eq.1 h; exact emitsShape_of_trace_eq rfl
  | tick now => exact execTick_emitsShape h
  | rxByte b now => exact execRxByte_emitsShape h
  | terr => exact execTerr_emitsShape h
  | crcInit => obtain rfl := next_eq.1 h; exact emitsShape_of_trace_eq rfl
  | crcByte b => obtain rfl := next_eq.1 h; exact emitsShape_of_trace_eq rfl
  | encode a n m => obtain ⟨r, rfl⟩ := execEncode_next h; exact emitsShape_of_trace_eq rfl
  | decode frame => obtain ⟨r, rfl⟩ := execDecode_next h; exact emitsShape_of_trace_eq rfl

/-! The step. -/

/-- Taking a decodable stimulus off the port (R59). -/
theorem step_of_decode {s : State} {x : Stimulus} {rest : List Stimulus} {i : Instr} (hp : s.port = x :: rest)
    (hd : decode x = .ok i) : step s = exec i { s with port := rest } := by
  simp only [step, hp, hd]

/-- Settles O48: a case per operation; the attempt of a `TICK` and the judgement of an `RX_BYTE` are inverted once. -/
theorem eachOperationEmitsOnlyItsOutputs : Obligations.EachOperationEmitsOnlyItsOutputs :=
  fun _ _ _ h => exec_emitsShape h

/-- Settles O4, by the two matches of `step`: the stimulus at the port and what it decodes to. -/
theorem stepRunsTheDecodedOperation : Obligations.StepRunsTheDecodedOperation :=
  fun _ _ _ _ hp hd => step_of_decode hp hd

end Sys2Proof.Machine

/-! Proofs, family 10_state.md: the invariant of R39 (R22 to R29, R38), the canonical buffer (R36, R50), the halted flag
(R30) and the refused slave lists (R32). -/

namespace Sys2Proof.Machine

/-! The checksum of a frame that carries its own (R103, R110). -/

/-- Bit steps over zero low bits are plain shifts. -/
theorem iterated_crc16Bit_of_low_zero (n : Nat) (x : Word16) (h : ∀ i < n, x.getLsbD i = false) :
    iterated crc16Bit n x = x >>> n := by
  induction n generalizing x with
  | zero => simp [iterated]
  | succ n ih =>
    have hbit : crc16Bit x = x >>> 1 := by
      rw [crc16Bit, if_neg (by rw [h 0 (Nat.succ_pos n)]; decide)]
    have hlow : ∀ i < n, (x >>> 1).getLsbD i = false := fun i hi => by
      rw [BitVec.getLsbD_ushiftRight]; exact h (1 + i) (by omega)
    rw [iterated, hbit, ih _ hlow, ← BitVec.shiftRight_add, Nat.add_comm 1 n]

/-- Folding in the register's own low byte cancels it. -/
theorem crc16Byte_loByte (r : Word16) : crc16Byte r (loByte r) = r >>> 8 := by
  have hlow : ∀ i < 8, (r ^^^ (loByte r).setWidth 16).getLsbD i = false := fun i hi => by
    simp [loByte, hi, show i < 16 by omega]
  rw [crc16Byte, iterated_crc16Bit_of_low_zero 8 _ hlow]
  ext i hi
  simp [loByte]

/-- Then folding in its high byte leaves zero. -/
theorem crc16Byte_shifted_hiByte (r : Word16) : crc16Byte (r >>> 8) (hiByte r) = 0#16 := by
  have hzero : r >>> 8 ^^^ (hiByte r).setWidth 16 = 0#16 := by
    ext i hi
    by_cases h8 : i < 8
    · simp [hiByte, h8]
    · simp [hiByte, h8, BitVec.getLsbD_of_ge r (8 + i) (by omega)]
  rw [crc16Byte, hzero, iterated_crc16Bit_of_low_zero 8 _ fun i _ => BitVec.getLsbD_zero]
  rfl

theorem crc16Update_append (r : Word16) (l m : List Byte) :
    crc16Update r (l ++ m) = crc16Update (crc16Update r l) m := by
  induction l generalizing r with
  | nil => rfl
  | cons b t ih => exact ih (crc16Byte r b)

/-- A sequence with its checksum appended has residual zero (R110). -/
theorem crc16_withChecksum (body : List Byte) : crc16 (withChecksum body) = 0#16 := by
  rw [withChecksum, crc16, crc16Update_append]
  change crc16Byte (crc16Byte (crc16 body) (loByte (crc16 body))) (hiByte (crc16 body)) = 0#16
  rw [crc16Byte_loByte, crc16Byte_shifted_hiByte]

/-- The check of R159 says that the frame is some body with its checksum. -/
theorem checksumOk_iff {frame : List Byte} : checksumOk frame = true ↔ ∃ body, frame = withChecksum body := by
  constructor
  · intro h
    unfold checksumOk at h
    split at h
    · next l hb hd =>
      simp only [Bool.and_eq_true, decide_eq_true_eq] at h
      obtain ⟨rfl, rfl⟩ := h
      exact ⟨frame.take (frame.length - 2), by rw [withChecksum, ← hd, List.take_append_drop]⟩
    · simp at h
  · rintro ⟨body, rfl⟩
    simp [checksumOk, withChecksum]

/-! What the operations of the two units do to the fields that the statements here speak of. -/

section
variable (a : Nat) (frame : List Byte) (now : Timestamp) (s : State)

@[simp] theorem sendRequest_crc : (sendRequest a frame now s).crc = s.crc := rfl
@[simp] theorem sendRequest_asmState : (sendRequest a frame now s).asmState = .accumulating := rfl
@[simp] theorem sendRequest_curSlave : (sendRequest a frame now s).curSlave = some (BitVec.ofNat 8 a) := rfl
@[simp] theorem sendRequest_buf : (sendRequest a frame now s).buf = [] := rfl
@[simp] theorem sendRequest_bufLen : (sendRequest a frame now s).bufLen = 0 := rfl
@[simp] theorem sendRequest_cursorIdx : (sendRequest a frame now s).cursorIdx = s.cursorIdx := rfl
@[simp] theorem sendRequest_lastSendTs : (sendRequest a frame now s).lastSendTs = some now := rfl
@[simp] theorem sendRequest_halted : (sendRequest a frame now s).halted = s.halted := rfl
@[simp] theorem sendRequest_config : (sendRequest a frame now s).config = s.config := rfl
@[simp] theorem sendRequest_configIn : (sendRequest a frame now s).configIn = s.configIn := rfl
@[simp] theorem sendRequest_port : (sendRequest a frame now s).port = s.port := rfl
@[simp] theorem sendRequest_callResult : (sendRequest a frame now s).callResult = s.callResult := rfl

@[simp] theorem completeCycle_crc : (completeCycle frame now s).crc = s.crc := rfl
@[simp] theorem completeCycle_asmState : (completeCycle frame now s).asmState = .complete := rfl
@[simp] theorem completeCycle_curSlave : (completeCycle frame now s).curSlave = s.curSlave := rfl
@[simp] theorem completeCycle_buf : (completeCycle frame now s).buf = s.buf := rfl
@[simp] theorem completeCycle_bufLen : (completeCycle frame now s).bufLen = s.bufLen := rfl
@[simp] theorem completeCycle_cursorIdx : (completeCycle frame now s).cursorIdx = s.cursorIdx := rfl
@[simp] theorem completeCycle_lastSendTs : (completeCycle frame now s).lastSendTs = s.lastSendTs := rfl
@[simp] theorem completeCycle_halted : (completeCycle frame now s).halted = s.halted := rfl
@[simp] theorem completeCycle_config : (completeCycle frame now s).config = s.config := rfl
@[simp] theorem completeCycle_configIn : (completeCycle frame now s).configIn = s.configIn := rfl
@[simp] theorem completeCycle_port : (completeCycle frame now s).port = s.port := rfl
@[simp] theorem completeCycle_callResult : (completeCycle frame now s).callResult = s.callResult := rfl

end

/-- Everything a step can do: run one operation, with the port it leaves (R59, R245). -/
theorem step_next {s t : State} (h : step s = .next t) : ∃ i p, exec i { s with port := p } = .next t := by
  unfold step at h
  split at h
  · exact ⟨.nop, s.port, h⟩
  · next x rest _ =>
    split at h
    · next i _ => exact ⟨i, rest, h⟩
    · simp at h

/-! The halted flag (R30). -/

theorem attemptRequest_halted {c : Config} {now : Timestamp} {s t : State} (h : attemptRequest c now s = .next t) :
    t.halted = s.halted := by
  obtain ⟨-, a, -, ⟨-, rfl⟩ | ⟨-, rfl⟩⟩ := attemptRequest_next.1 h
  · exact raiseError_halted _ now a _ (by decide)
  · rfl

theorem execTick_halted {now : Timestamp} {s t : State} (h : execTick now s = .next t) : t.halted = s.halted := by
  obtain ⟨-, rfl⟩ | ⟨-, -, ⟨-, h⟩ | ⟨-, ts, -, ⟨-, rfl⟩ | ⟨-, cur, -, h⟩⟩⟩ := execTick_next.1 h
  · rfl
  · exact attemptRequest_halted h
  · rfl
  · exact (attemptRequest_halted h).trans (raiseError_halted _ now _ s (by decide))

theorem execRxByte_halted {b : Byte} {now : Timestamp} {s t : State} (h : execRxByte b now s = .next t) :
    t.halted = s.halted := by
  obtain ⟨-, rfl⟩ | ⟨-, -, -, -, h⟩ := execRxByte_next.1 h
  · rfl
  · obtain rfl | ⟨cur, -, rfl | rfl⟩ | ⟨frame, -, -, rfl⟩ := judgeByte_next h <;> rfl

/-- Only `TERR` and `RST` write the flag. -/
theorem exec_halted {i : Instr} {s t : State} (h : exec i s = .next t) (hterr : i ≠ .terr) (hrst : i ≠ .rst) :
    t.halted = s.halted := by
  cases i with
  | nop => obtain rfl := next_eq.1 h; rfl
  | rst => exact absurd rfl hrst
  | tick now => exact execTick_halted h
  | rxByte b now => exact execRxByte_halted h
  | terr => exact absurd rfl hterr
  | crcInit => obtain rfl := next_eq.1 h; rfl
  | crcByte b => obtain rfl := next_eq.1 h; rfl
  | encode a n m => obtain ⟨r, rfl⟩ := execEncode_next h; rfl
  | decode frame => obtain ⟨r, rfl⟩ := execDecode_next h; rfl

/-- `TERR` leaves the flag set, whether it was or not (R246). -/
theorem execTerr_halted {s t : State} (h : execTerr s = .next t) : t.halted = true := by
  obtain ⟨hs, rfl⟩ | ⟨-, rfl⟩ := execTerr_next.1 h
  · exact hs
  · rfl

/-- While the flag is set the polling operations do nothing. -/
theorem exec_of_halted {s : State} (now : Timestamp) (b : Byte) (h : s.halted = true) :
    exec (.tick now) s = .next s ∧ exec (.rxByte b now) s = .next s ∧ exec .terr s = .next s :=
  ⟨execTick_next.2 (.inl ⟨h, rfl⟩), execRxByte_next.2 (.inl ⟨.inl h, rfl⟩), execTerr_next.2 (.inl ⟨h, rfl⟩)⟩

/-- Settles O11: a frame lemma over the operations for who writes the flag, and the ignored case of each polling
operation for what it stops. -/
theorem haltedIsStickyAndStopsPolling : Obligations.HaltedIsStickyAndStopsPolling :=
  ⟨rfl, fun _ _ _ => exec_halted, fun _ _ => execTerr_halted, fun _ _ h => by obtain rfl := next_eq.1 h; rfl,
    fun _ now b => exec_of_halted now b, fun _ _ _ => ⟨rfl, rfl⟩⟩

/-! The canonical buffer (R36, R50). -/

/-- An attempt leaves the buffer empty, rejected or sent. -/
theorem attemptRequest_buf {c : Config} {now : Timestamp} {s t : State} (h : attemptRequest c now s = .next t) :
    t.buf = [] := by
  obtain ⟨-, a, -, ⟨-, rfl⟩ | ⟨-, rfl⟩⟩ := attemptRequest_next.1 h <;> rfl

theorem judgeByte_buf {c : Config} {now : Timestamp} {s t : State} (h : judgeByte c now s = .next t) :
    t.buf = s.buf ∨ t.buf = [] := by
  obtain rfl | ⟨cur, -, rfl | rfl⟩ | ⟨frame, -, -, rfl⟩ := judgeByte_next h
  · exact .inl rfl
  · exact .inr rfl
  · exact .inr rfl
  · exact .inl rfl

/-- Everything an operation can do to the buffer: leave it, empty it, or append one byte inside it. -/
theorem exec_buf {i : Instr} {s t : State} (h : exec i s = .next t) :
    t.buf = s.buf ∨ t.buf = [] ∨ ∃ b, s.bufLen < bufDepth ∧ t.buf = Memory.write s.buf s.bufLen b := by
  cases i with
  | nop => obtain rfl := next_eq.1 h; exact .inl rfl
  | rst => obtain rfl := next_eq.1 h; exact .inr (.inl rfl)
  | tick now =>
    obtain ⟨-, rfl⟩ | ⟨-, -, ⟨-, h⟩ | ⟨-, ts, -, ⟨-, rfl⟩ | ⟨-, cur, -, h⟩⟩⟩ := execTick_next.1 h
    · exact .inl rfl
    · exact .inr (.inl (attemptRequest_buf h))
    · exact .inl rfl
    · exact .inr (.inl (attemptRequest_buf h))
  | rxByte b now =>
    obtain ⟨-, rfl⟩ | ⟨-, -, -, hlen, h⟩ := execRxByte_next.1 h
    · exact .inl rfl
    · obtain hb | hb := judgeByte_buf h
      · exact .inr (.inr ⟨b, hlen, hb⟩)
      · exact .inr (.inl hb)
  | terr => obtain ⟨-, rfl⟩ | ⟨-, rfl⟩ := execTerr_next.1 h <;> exact .inl rfl
  | crcInit => obtain rfl := next_eq.1 h; exact .inl rfl
  | crcByte b => obtain rfl := next_eq.1 h; exact .inl rfl
  | encode a n m => obtain ⟨r, rfl⟩ := execEncode_next h; exact .inl rfl
  | decode frame => obtain ⟨r, rfl⟩ := execDecode_next h; exact .inl rfl

theorem exec_keeps_wf {i : Instr} {s t : State} (hs : Memory.wf s.buf = true) (h : exec i s = .next t) :
    Memory.wf t.buf = true := by
  obtain hb | hb | ⟨b, hlen, hb⟩ := exec_buf h <;> rw [hb]
  · exact hs
  · exact Memory.wf_nil
  · exact Memory.wf_write _ _ b hs hlen

/-- Settles O53: the buffer after an operation is the old one, the empty one, or the old one with one write. -/
theorem bufferStaysCanonical : Obligations.BufferStaysCanonical := by
  refine ⟨rfl, fun s t hs h => ?_⟩
  obtain ⟨i, p, h⟩ := step_next h
  exact exec_keeps_wf (s := { s with port := p }) hs h

/-! The refused slave lists (R32, U1, D16). -/

/-- The timeout test in natural numbers, the wrap written out (R192). -/
theorem timedOut_iff {c : Config} {now ts : Timestamp} :
    timedOut c now ts = true ↔ c.responseTimeoutMs.toNat < (now.toNat + 2 ^ 32 - ts.toNat) % 2 ^ 32 := by
  have hts := ts.isLt
  rw [timedOut, decide_eq_true_eq, elapsed, BitVec.toNat_sub,
    show 2 ^ 32 - ts.toNat + now.toNat = now.toNat + 2 ^ 32 - ts.toNat by omega]

/-- With no request outstanding a `TICK` is an attempt (R191). -/
theorem execTick_of_not_outstanding {now : Timestamp} {s : State} (hh : s.halted = false)
    (hc : s.configIn = s.config) (ha : s.asmState ≠ .accumulating) :
    execTick now s = attemptRequest s.config now s := by
  simp [execTick, State.pollingHalted, State.outstanding, withStableConfig, hh, hc, ha]

/-- With the outstanding request timed out it is the report and then an attempt (R198). -/
theorem execTick_of_timedOut {now ts : Timestamp} {cur : Byte} {s : State} (hh : s.halted = false)
    (hc : s.configIn = s.config) (ha : s.asmState = .accumulating) (hcur : s.curSlave = some cur)
    (hts : s.lastSendTs = some ts) (hto : timedOut s.config now ts = true) :
    execTick now s = attemptRequest s.config now (raiseError .timeout now cur.toNat s) := by
  simp [execTick, State.pollingHalted, State.outstanding, withStableConfig, withLastSendTs, withCurSlave, *]

theorem attemptRequest_of_empty {c : Config} (now : Timestamp) (s : State) (h : c.slaves.length = 0) :
    attemptRequest c now s = .refused .emptySlaveList := by
  rw [attemptRequest, withSelectedSlave, if_pos h]

theorem attemptRequest_of_too_long {c : Config} (now : Timestamp) (s : State) (h : slavesMax < c.slaves.length) :
    attemptRequest c now s = .refused .slaveListTooLong := by
  have hne : ¬ c.slaves.length = 0 := by omega
  have hill : listLegal c = false := by simp [listLegal, h]
  rw [attemptRequest, withSelectedSlave, if_neg hne, if_pos hill]

/-- Settles O46: on both paths the `TICK` is an attempt, whose selection refuses the list. -/
theorem tickRefusesIllegalSlaveList : Obligations.TickRefusesIllegalSlaveList := by
  intro s now hh hc hdue
  obtain ⟨s', htick⟩ : ∃ s', exec (.tick now) s = attemptRequest s.config now s' := by
    obtain ha | ⟨cur, ts, ha, hcur, hts, hto⟩ := hdue
    · exact ⟨s, execTick_of_not_outstanding hh hc ha⟩
    · exact ⟨_, execTick_of_timedOut hh hc ha hcur hts (timedOut_iff.2 hto)⟩
  rw [htick]
  exact ⟨attemptRequest_of_empty now s', attemptRequest_of_too_long now s'⟩

/-! The invariant of R39: what it reads, and the states that meet it. -/

/-- The state without the fields that the invariant does not read. -/
def State.pollingPart (s : State) : State :=
  { s with crc := crcInitValue, halted := false, port := [], trace := [], callResult := .none }

theorem headerOk_pollingPart {s : State} {cur : Byte} : HeaderOk s.pollingPart cur ↔ HeaderOk s cur :=
  ⟨fun ⟨ha, hf, hb⟩ => ⟨ha, hf, hb⟩, fun ⟨ha, hf, hb⟩ => ⟨ha, hf, hb⟩⟩

theorem inv_pollingPart {s : State} : Inv s.pollingPart ↔ Inv s := by
  constructor <;> intro h
  · exact { h with
      completeHeader := fun ha => (h.completeHeader ha).imp fun _ ⟨hc, hh⟩ => ⟨hc, headerOk_pollingPart.1 hh⟩
      waitHeader := fun ha => (h.waitHeader ha).imp fun _ ⟨hc, hlo, hhi, hh⟩ =>
        ⟨hc, hlo, hhi, headerOk_pollingPart.1 hh⟩ }
  · exact { h with
      completeHeader := fun ha => (h.completeHeader ha).imp fun _ ⟨hc, hh⟩ => ⟨hc, headerOk_pollingPart.2 hh⟩
      waitHeader := fun ha => (h.waitHeader ha).imp fun _ ⟨hc, hlo, hhi, hh⟩ =>
        ⟨hc, hlo, hhi, headerOk_pollingPart.2 hh⟩ }

/-- States that differ in the other fields alone meet the invariant together. -/
theorem Inv.of_pollingPart_eq {s t : State} (hs : Inv s) (h : t.pollingPart = s.pollingPart) : Inv t :=
  inv_pollingPart.1 (h ▸ inv_pollingPart.2 hs)

theorem listLegal_iff {c : Config} : listLegal c = true ↔ 1 ≤ c.slaves.length ∧ c.slaves.length ≤ slavesMax := by
  simp [listLegal]

/-- `Idle` with an empty buffer needs only legal lists and a cursor inside the list. -/
theorem inv_of_idle {s : State} (hin : listLegal s.configIn = true) (hlist : listLegal s.config = true)
    (hcursor : s.cursorIdx < s.config.slaves.length) (hasm : s.asmState = .idle) (hbuf : s.buf = [])
    (hlen : s.bufLen = 0) : Inv s where
  inputList := hin
  list := hlist
  cursor := hcursor
  bufExact := by simp [hbuf, hlen]
  bufLe := by simp [hlen]
  restEmpty _ := hlen
  completeLen := by simp [hasm]
  completeHeader := by simp [hasm]
  completeResidual := by simp [hasm]
  waitLen := by simp [hasm]
  waitCount := by simp [hasm]
  waitHeader := by simp [hasm]
  held := by simp [hasm]
  polled := by simp [hasm]

theorem inv_resetBlock {s : State} (hs : Inv s) : Inv s.resetBlock :=
  inv_of_idle hs.inputList hs.inputList (listLegal_iff.1 hs.inputList).1 rfl rfl rfl

theorem inv_resetWith {c : Config} (hc : listLegal c = true) : Inv (State.resetWith c) :=
  inv_of_idle hc hc (listLegal_iff.1 hc).1 rfl rfl rfl

/-- Settles O50: the state after reset is `Idle` with an empty buffer. -/
theorem resetMeetsInvariant : Obligations.ResetMeetsInvariant :=
  ⟨fun _ => inv_resetWith, inv_resetWith (by decide)⟩

/-! A `TICK` keeps the invariant. -/

theorem advanceCursor_lt {s : State} (hs : Inv s) : s.advanceCursor.cursorIdx < s.config.slaves.length :=
  Nat.mod_lt _ (Nat.zero_lt_of_lt hs.cursor)

/-- The entry before the advanced cursor is the one it stood on (R23, R27). -/
theorem advanced_pred_mod {i m : Nat} (h : i < m) : ((i + 1) % m + m - 1) % m = i := by
  by_cases hwrap : i + 1 = m
  · subst hwrap
    simp
  · rw [Nat.mod_eq_of_lt (show i + 1 < m by omega), show i + 1 + m - 1 = i + m by omega, Nat.add_mod_right,
      Nat.mod_eq_of_lt h]

/-- A rejected attempt (R195) ends in `Idle`. -/
theorem inv_rejected {s : State} (hs : Inv s) (now : Timestamp) (a : Nat) :
    Inv (raiseError .invalidParameter now a s.advanceCursor) :=
  inv_of_idle hs.inputList hs.list (advanceCursor_lt hs) rfl rfl rfl

/-- A request sent (R196) opens a cycle with nothing received, for the entry before the advanced cursor. -/
theorem inv_sent {s : State} (hs : Inv s) {a : Nat} (ha : s.config.slaves[s.cursorIdx]? = some a)
    (hlegal : legalRequest a s.config.startAddr s.config.regCount = true) (frame : List Byte) (now : Timestamp) :
    Inv (sendRequest a frame now s.advanceCursor) := by
  obtain ⟨⟨ha1, ha247⟩, -, hcount⟩ := legalRequest_iff.1 hlegal
  have hword : (BitVec.ofNat 8 a).toNat = a := Nat.mod_eq_of_lt (by omega)
  exact {
    inputList := hs.inputList
    list := hs.list
    cursor := advanceCursor_lt hs
    bufExact := rfl
    bufLe := Nat.zero_le _
    restEmpty _ := rfl
    completeLen := by simp
    completeHeader := by simp
    completeResidual := by simp
    waitLen _ := by simp
    waitCount _ := hcount
    waitHeader _ := ⟨_, rfl, by omega, by omega, by constructor <;> simp⟩
    held _ := ⟨rfl, rfl⟩
    polled _ := by simp [hword, advanced_pred_mod hs.cursor, ha] }

theorem attemptRequest_inv {now : Timestamp} {s t : State} (hs : Inv s)
    (h : attemptRequest s.config now s = .next t) : Inv t := by
  obtain ⟨-, a, ha, ⟨-, rfl⟩ | ⟨hlegal, rfl⟩⟩ := attemptRequest_next.1 h
  · exact inv_rejected hs now a
  · exact inv_sent hs ha hlegal _ now

theorem execTick_inv {now : Timestamp} {s t : State} (hs : Inv s) (h : execTick now s = .next t) : Inv t := by
  obtain ⟨-, rfl⟩ | ⟨-, -, ⟨-, h⟩ | ⟨-, ts, -, ⟨-, rfl⟩ | ⟨-, cur, -, h⟩⟩⟩ := execTick_next.1 h
  · exact hs
  · exact attemptRequest_inv hs h
  · exact hs
  · exact attemptRequest_inv (s := raiseError .timeout now cur.toNat s) (hs.of_pollingPart_eq rfl) h

/-! The checks of an appended byte, with what an accepted byte shows. -/

/-- The newest byte has passed the check its position has (R155, R156, R157). -/
structure HeaderByteOk (c : Config) (s : State) : Prop where
  address : s.bufLen = 1 → ∃ cur, s.curSlave = some cur ∧ Memory.read s.buf 0 = some cur
  function : s.bufLen = 2 → Memory.read s.buf 1 = some funcCode
  byteCount : s.bufLen = 3 → ∃ n, Memory.read s.buf 2 = some n ∧ n.toNat = requestedByteCount c.regCount

/-- The cycle has ended in `Failed` (R161). -/
def CycleFailed (now : Timestamp) (s t : State) : Prop :=
  ∃ cur, s.curSlave = some cur ∧
    (t = raiseError .frameMismatch now cur.toNat s ∨ t = raiseError .checksumMismatch now cur.toNat s)

/-- The bytes received are as many as the byte count asks for (R158). -/
def FrameFull (s : State) : Prop := ∃ n, Memory.read s.buf 2 = some n ∧ s.bufLen = expectedTotal n

/-- A header check accepts the byte or fails the cycle. -/
theorem headerCheck_next {p : Prop} [Decidable p] {now : Timestamp} {s t : State}
    (h : (if p then .next s else failCycle .frameMismatch now s : Result) = .next t) :
    (t = s ∧ p) ∨ CycleFailed now s t := by
  split at h
  · next hp => exact .inl ⟨next_eq.1 h, hp⟩
  · obtain ⟨cur, hcur, rfl⟩ := failCycle_next.1 h
    exact .inr ⟨cur, hcur, .inl rfl⟩

/-- What `judgeByte_next` says, with the check that an accepted byte has passed and the length of a completed frame. -/
theorem judgeByte_checked {c : Config} {now : Timestamp} {s t : State} (h : judgeByte c now s = .next t) :
    (t = s ∧ HeaderByteOk c s ∧ (4 ≤ s.bufLen → ¬ FrameFull s)) ∨ CycleFailed now s t ∨
    (FrameFull s ∧ ∃ frame, s.received = some frame ∧ checksumOk frame = true ∧ t = completeCycle frame now s) := by
  unfold judgeByte at h
  simp only at h
  split at h
  case isTrue h1 =>
    simp only [withBufByte_next, withCurSlave_next] at h
    obtain ⟨b, hb, cur, hcur, h⟩ := h
    obtain ⟨rfl, rfl⟩ | hfail := headerCheck_next h
    · exact .inl ⟨rfl, ⟨fun _ => ⟨b, hcur, hb⟩, by omega, by omega⟩, by omega⟩
    · exact .inr (.inl hfail)
  case isFalse h1 =>
    split at h
    case isTrue h2 =>
      obtain ⟨b, hb, h⟩ := withBufByte_next.1 h
      obtain ⟨rfl, rfl⟩ | hfail := headerCheck_next h
      · exact .inl ⟨rfl, ⟨by omega, fun _ => hb, by omega⟩, by omega⟩
      · exact .inr (.inl hfail)
    case isFalse h2 =>
      split at h
      case isTrue h3 =>
        obtain ⟨b, hb, h⟩ := withBufByte_next.1 h
        obtain ⟨rfl, hcount⟩ | hfail := headerCheck_next h
        · exact .inl ⟨rfl, ⟨by omega, by omega, fun _ => ⟨b, hb, hcount⟩⟩, by omega⟩
        · exact .inr (.inl hfail)
      case isFalse h3 =>
        obtain ⟨n, hn, h⟩ := withBufByte_next.1 h
        split at h
        case isTrue hfull =>
          obtain ⟨frame, hframe, h⟩ := withBufBytes_next.1 h
          split at h
          case isTrue hok => exact .inr (.inr ⟨⟨n, hn, hfull⟩, frame, hframe, hok, next_eq.1 h⟩)
          case isFalse =>
            obtain ⟨cur, hcur, rfl⟩ := failCycle_next.1 h
            exact .inr (.inl ⟨cur, hcur, .inr rfl⟩)
        case isFalse hmore =>
          refine .inl ⟨next_eq.1 h, ⟨by omega, by omega, by omega⟩, fun _ ⟨m, hm, hfull⟩ => hmore ?_⟩
          obtain rfl : n = m := Option.some.inj (hn.symm.trans hm)
          exact hfull

/-! An `RX_BYTE` keeps the invariant. -/

/-- An append leaves the bytes before it. -/
theorem read_appended {s : State} {i : Nat} (b : Byte) (h : i < s.bufLen) :
    Memory.read (s.appended b).buf i = Memory.read s.buf i :=
  Memory.read_write_other s.buf s.bufLen i b (by omega)

/-- An append at `buf_len` keeps the listed indices those below `buf_len` (R24, R154). -/
theorem appended_bufExact {s : State} (b : Byte) (h : s.buf.map Prod.fst = List.range s.bufLen) :
    (s.appended b).buf.map Prod.fst = List.range (s.appended b).bufLen := by
  have hbelow : ∀ c ∈ s.buf, c.1 < s.bufLen := fun c hc => by
    simpa [h] using List.mem_map_of_mem (f := Prod.fst) hc
  simp [Memory.write_last _ _ b hbelow, h, List.range_succ]

/-- The header stays checked when the byte appended has passed its own check. -/
theorem HeaderOk.appended {s : State} {cur b : Byte} (h : HeaderOk s cur) (hcur : s.curSlave = some cur)
    (hb : HeaderByteOk s.config (s.appended b)) : HeaderOk (s.appended b) cur where
  address hlen := by
    by_cases h0 : s.bufLen = 0
    · obtain ⟨cur', hcur', hread⟩ := hb.address (by simp [h0])
      exact hread.trans (hcur'.symm.trans hcur)
    · rw [read_appended b (by omega)]; exact h.address (by omega)
  function hlen := by
    by_cases h1 : s.bufLen = 1
    · exact hb.function (by simp [h1])
    · simp only [State.appended_bufLen] at hlen
      rw [read_appended b (by omega)]; exact h.function (by omega)
  byteCount hlen := by
    by_cases h2 : s.bufLen = 2
    · exact hb.byteCount (by simp [h2])
    · simp only [State.appended_bufLen] at hlen
      rw [read_appended b (by omega)]; exact h.byteCount (by omega)

/-- Under a checked header the frame is full at the length the request asked for (R157, R158). -/
theorem HeaderOk.frameFull_iff {s : State} {cur : Byte} (h : HeaderOk s cur) (hlen : 3 ≤ s.bufLen) :
    FrameFull s ↔ s.bufLen = 5 + 2 * s.config.regCount := by
  obtain ⟨n, hn, hcount⟩ := h.byteCount hlen
  simp only [FrameFull, hn, Option.some.injEq, exists_eq_left', expectedTotal, hcount, requestedByteCount]
  omega

theorem expectedTotal_ge (n : Byte) : 5 ≤ expectedTotal n := by
  unfold expectedTotal; omega

theorem FrameFull.five_le {s : State} (h : FrameFull s) : 5 ≤ s.bufLen := by
  obtain ⟨n, -, hlen⟩ := h
  exact hlen ▸ expectedTotal_ge n

/-- A full frame is past the positions with a check of their own. -/
theorem FrameFull.headerByteOk {s : State} (h : FrameFull s) (c : Config) : HeaderByteOk c s := by
  have hlen := h.five_le
  exact ⟨by omega, by omega, by omega⟩

/-- A failed cycle (R161) keeps slave and time and empties the buffer. -/
theorem inv_failed {s : State} (hs : Inv s) (hasm : s.asmState ≠ .idle) : Inv (s.setAsm .failed).clearBuffer where
  inputList := hs.inputList
  list := hs.list
  cursor := hs.cursor
  bufExact := rfl
  bufLe := Nat.zero_le _
  restEmpty _ := rfl
  completeLen := by simp
  completeHeader := by simp
  completeResidual := by simp
  waitLen := by simp
  waitCount := by simp
  waitHeader := by simp
  held _ := hs.held hasm
  polled _ := hs.polled hasm

section
variable {s : State} {b : Byte} (hs : Inv s) (hasm : s.asmState = .accumulating) (hroom : s.bufLen < bufDepth)
include hs hasm hroom

/-- A byte accepted without filling the frame leaves the cycle open. -/
theorem inv_appended (hb : HeaderByteOk s.config (s.appended b))
    (hmore : 4 ≤ (s.appended b).bufLen → ¬ FrameFull (s.appended b)) : Inv (s.appended b) := by
  obtain ⟨cur, hcur, hlo, hhi, hheader⟩ := hs.waitHeader hasm
  have hheader' := hheader.appended hcur hb
  have hwaitLen := hs.waitLen hasm
  exact {
    inputList := hs.inputList
    list := hs.list
    cursor := hs.cursor
    bufExact := appended_bufExact b hs.bufExact
    bufLe := hroom
    restEmpty := by simp [hasm]
    completeLen := by simp [hasm]
    completeHeader := by simp [hasm]
    completeResidual := by simp [hasm]
    waitLen _ := by
      by_cases h4 : 4 ≤ (s.appended b).bufLen
      · have hne := mt (hheader'.frameFull_iff (by omega)).2 (hmore h4)
        simp only [State.appended_bufLen, State.appended_config] at hne ⊢
        omega
      · simp only [State.appended_config]; omega
    waitCount _ := hs.waitCount hasm
    waitHeader _ := ⟨cur, hcur, hlo, hhi, hheader'⟩
    held := hs.held
    polled := hs.polled }

/-- A byte that fills the frame with a good checksum leaves the verified frame in the buffer (R160, R162). -/
theorem inv_completed (hfull : FrameFull (s.appended b)) {frame : List Byte}
    (hframe : (s.appended b).received = some frame) (hok : checksumOk frame = true) (now : Timestamp) :
    Inv (completeCycle frame now (s.appended b)) := by
  obtain ⟨cur, hcur, -, -, hheader⟩ := hs.waitHeader hasm
  have hheader' := hheader.appended hcur (hfull.headerByteOk s.config)
  have hlen := hfull.five_le
  have hne : s.asmState ≠ .idle := by simp [hasm]
  obtain ⟨body, rfl⟩ := checksumOk_iff.1 hok
  exact {
    inputList := hs.inputList
    list := hs.list
    cursor := hs.cursor
    bufExact := appended_bufExact b hs.bufExact
    bufLe := hroom
    restEmpty := by simp
    completeLen _ := (hheader'.frameFull_iff (by omega)).1 hfull
    completeHeader _ := ⟨cur, hcur, hheader'.address, hheader'.function, hheader'.byteCount⟩
    completeResidual _ := ⟨_, hframe, crc16_withChecksum body⟩
    waitLen := by simp
    waitCount := by simp
    waitHeader := by simp
    held _ := hs.held hne
    polled _ := hs.polled hne }

end

theorem execRxByte_inv {b : Byte} {now : Timestamp} {s t : State} (hs : Inv s) (h : execRxByte b now s = .next t) :
    Inv t := by
  obtain ⟨-, rfl⟩ | ⟨-, hasm, -, hroom, h⟩ := execRxByte_next.1 h
  · exact hs
  · have hfailed := inv_failed hs (by simp [hasm])
    obtain ⟨rfl, hb, hmore⟩ | ⟨cur, -, rfl | rfl⟩ | ⟨hfull, frame, hframe, hok, rfl⟩ := judgeByte_checked h
    · exact inv_appended hs hasm hroom hb hmore
    · exact hfailed.of_pollingPart_eq rfl
    · exact hfailed.of_pollingPart_eq rfl
    · exact inv_completed hs hasm hroom hfull hframe hok now

/-! Every operation keeps the invariant. -/

theorem exec_inv {i : Instr} {s t : State} (hs : Inv s) (h : exec i s = .next t) : Inv t := by
  cases i with
  | nop => obtain rfl := next_eq.1 h; exact hs
  | rst => obtain rfl := next_eq.1 h; exact inv_resetBlock hs
  | tick now => exact execTick_inv hs h
  | rxByte b now => exact execRxByte_inv hs h
  | terr => obtain ⟨-, rfl⟩ | ⟨-, rfl⟩ := execTerr_next.1 h <;> exact hs.of_pollingPart_eq rfl
  | crcInit => obtain rfl := next_eq.1 h; exact hs.of_pollingPart_eq rfl
  | crcByte b => obtain rfl := next_eq.1 h; exact hs.of_pollingPart_eq rfl
  | encode a n m => obtain ⟨r, rfl⟩ := execEncode_next h; exact hs.of_pollingPart_eq rfl
  | decode frame => obtain ⟨r, rfl⟩ := execDecode_next h; exact hs.of_pollingPart_eq rfl

/-- Settles O51: a step is one operation on the state with another port, which the invariant does not read; only `TICK`,
`RX_BYTE` and `RST` change what it reads. -/
theorem everyStepKeepsInvariant : Obligations.EveryStepKeepsInvariant := by
  intro s t hs h
  obtain ⟨i, p, h⟩ := step_next h
  exact exec_inv (s := { s with port := p }) (hs.of_pollingPart_eq rfl) h

end Sys2Proof.Machine

/-! Proofs, family 20_memory.md: a run over the port is a run of operations (R59, R92), and the sampling of the
configuration (R65, R260, U2). -/

namespace Sys2Proof.Machine

/-! The decoder reads back what the encoder writes (R71 to R75). -/

/-- A request frame is the call of `ENCODE` with its operands, when they fit their fields (R73). -/
theorem decodeCall_requestFrame {a n m : Nat} (ha : a < 2 ^ 8) (hn : n < 2 ^ 16) (hm : m < 2 ^ 16) :
    decodeCall (requestFrame a n m) = .ok (.encode a n m) := by
  change decodeRequest (BitVec.ofNat 8 a) funcCode (hiByte (BitVec.ofNat 16 n)) (loByte (BitVec.ofNat 16 n))
    (hiByte (BitVec.ofNat 16 m)) (loByte (BitVec.ofNat 16 m)) = _
  simpa [decodeRequest] using ⟨ha, hn, hm⟩

@[simp] theorem responseBytes_length (f : ResponseFrame) : (responseBytes f).length = 5 + 2 * f.registers.length := by
  simp [responseBytes]; omega

/-- The five fields of a response's bytes are the response (R75, R76). -/
theorem responseOf_responseBytes (f : ResponseFrame) : responseOf (responseBytes f) = f := by
  have hregs : ((responseBytes f).drop 3).take ((responseBytes f).length - 5) = registerBytes f.registers := by
    simp [responseBytes]
  have hlo : (responseBytes f).getD ((responseBytes f).length - 2) 0#8 = loByte f.checksum := by
    simp [responseBytes]
  have hhi : (responseBytes f).getD ((responseBytes f).length - 1) 0#8 = hiByte f.checksum := by
    simp [responseBytes]
  rw [responseOf, hregs, hlo, hhi, registersOf_registerBytes, wordOf_hi_lo]
  rfl

/-- A call of another length than a request frame's is a response frame or none (R75). -/
theorem decodeCall_of_length_ne {bytes : List Byte} (h : bytes.length ≠ 8) :
    decodeCall bytes =
      if 5 ≤ bytes.length && bytes.length ≤ bufDepth && bytes.length % 2 = 1
      then .ok (.decode (responseOf bytes)) else .error (.frameLength bytes.length) := by
  unfold decodeCall
  split
  · simp at h
  · rfl

/-- A response frame is the call of `DECODE` on it, when it fits the buffer (R64, R75). -/
theorem decodeCall_responseBytes {f : ResponseFrame} (h : f.registers.length ≤ 125) :
    decodeCall (responseBytes f) = .ok (.decode f) := by
  have hlen := responseBytes_length f
  rw [decodeCall_of_length_ne (by omega), if_pos, responseOf_responseBytes]
  simp [bufDepth]; omega

/-- Decoding the encoding of a well-formed operation gives it back. -/
theorem decode_encode {i : Instr} (h : i.wf = true) : decode (encode i) = .ok i := by
  cases i with
  | encode a n m =>
    simp only [Instr.wf, Bool.and_eq_true, decide_eq_true_eq] at h
    exact decodeCall_requestFrame (by omega) (by omega) (by omega)
  | decode f => exact decodeCall_responseBytes (of_decide_eq_true h)
  | rxByte b now => simp [encode, decode, decodeEvent, Laws.eventOp_eventWord, Laws.eventData_eventWord]
  | crcByte b => simp [encode, decode, decodeEvent, Laws.eventOp_eventWord, Laws.eventData_eventWord]
  | nop | rst | tick now | terr | crcInit => rfl

/-! No operation reads or writes the port: with another port it answers the same, with that port. -/

/-- The state with `p` on the port. -/
def State.withPort (s : State) (p : List Stimulus) : State := { s with port := p }

/-- The answer with `p` on the port of a next state. -/
@[simp] def resultWithPort (p : List Stimulus) : Result → Result
  | .next s => .next (s.withPort p)
  | .fault f => .fault f
  | .refused r => .refused r

section
variable {s : State} {p : List Stimulus}

theorem withCurSlave_withPort {k k' : Byte → Result} (h : ∀ a, k' a = resultWithPort p (k a)) :
    withCurSlave (s.withPort p) k' = resultWithPort p (withCurSlave s k) := by
  unfold withCurSlave State.withPort; cases s.curSlave <;> simp [h]

theorem withLastSendTs_withPort {k k' : Timestamp → Result} (h : ∀ ts, k' ts = resultWithPort p (k ts)) :
    withLastSendTs (s.withPort p) k' = resultWithPort p (withLastSendTs s k) := by
  unfold withLastSendTs State.withPort; cases s.lastSendTs <;> simp [h]

theorem withBufByte_withPort {i : Nat} {k k' : Byte → Result} (h : ∀ b, k' b = resultWithPort p (k b)) :
    withBufByte (s.withPort p) i k' = resultWithPort p (withBufByte s i k) := by
  unfold withBufByte State.withPort; cases Memory.read s.buf i <;> simp [h]

theorem withBufBytes_withPort {n : Nat} {k k' : List Byte → Result} (h : ∀ l, k' l = resultWithPort p (k l)) :
    withBufBytes (s.withPort p) n k' = resultWithPort p (withBufBytes s n k) := by
  unfold withBufBytes State.withPort; cases Memory.readRange s.buf 0 n <;> simp [h]

theorem withAppended_withPort {b : Byte} {k k' : State → Result}
    (h : k' ((s.appended b).withPort p) = resultWithPort p (k (s.appended b))) :
    withAppended (s.withPort p) b k' = resultWithPort p (withAppended s b k) := by
  rw [withAppended, withAppended, apply_ite (resultWithPort p), ← h]
  rfl

theorem withStableConfig_withPort {k k' : Config → Result} (h : ∀ c, k' c = resultWithPort p (k c)) :
    withStableConfig (s.withPort p) k' = resultWithPort p (withStableConfig s k) := by
  rw [withStableConfig, withStableConfig, apply_ite (resultWithPort p), ← h]
  rfl

theorem withSelectedSlave_withPort {c : Config} {k k' : Nat → Result} (h : ∀ a, k' a = resultWithPort p (k a)) :
    withSelectedSlave c (s.withPort p) k' = resultWithPort p (withSelectedSlave c s k) := by
  simp only [withSelectedSlave, apply_ite (resultWithPort p)]
  refine ite_congr rfl (fun _ => rfl) fun _ => ite_congr rfl (fun _ => rfl) fun _ => ?_
  unfold State.withPort; cases c.slaves[s.cursorIdx]? <;> simp [h]

end

section
variable (s : State) (p : List Stimulus)

theorem raiseError_withPort (k : ErrorKind) (now : Timestamp) (addr : Nat) :
    raiseError k now addr (s.withPort p) = (raiseError k now addr s).withPort p := by
  cases k <;> rfl

theorem failCycle_withPort (r : ErrorKind) (now : Timestamp) :
    failCycle r now (s.withPort p) = resultWithPort p (failCycle r now s) :=
  withCurSlave_withPort fun cur => congrArg Host.Outcome.next (raiseError_withPort s p r now cur.toNat)

/-- One check of `judgeByte`: go on to `u`, or fail the cycle. -/
theorem check_withPort (q : Prop) [Decidable q] (r : ErrorKind) (now : Timestamp) (u : State) :
    (if q then .next (u.withPort p) else failCycle r now (s.withPort p)) =
      resultWithPort p (if q then .next u else failCycle r now s) := by
  rw [apply_ite (resultWithPort p), failCycle_withPort]
  rfl

theorem judgeByte_withPort (c : Config) (now : Timestamp) :
    judgeByte c now (s.withPort p) = resultWithPort p (judgeByte c now s) := by
  simp only [judgeByte, apply_ite (resultWithPort p)]
  refine ite_congr rfl (fun _ => ?first) fun _ => ite_congr rfl (fun _ => ?second) fun _ =>
    ite_congr rfl (fun _ => ?third) fun _ => withBufByte_withPort fun byteCount => ?later
  case first =>
    exact withBufByte_withPort fun b => withCurSlave_withPort fun cur => check_withPort s p (b = cur) _ now s
  case second => exact withBufByte_withPort fun b => check_withPort s p (b = funcCode) _ now s
  case third =>
    exact withBufByte_withPort fun b => check_withPort s p (b.toNat = requestedByteCount c.regCount) _ now s
  case later =>
    rw [apply_ite (resultWithPort p)]
    refine ite_congr rfl (fun _ => withBufBytes_withPort fun frame => ?_) fun _ => rfl
    exact check_withPort s p (checksumOk frame) _ now (completeCycle frame now s)

theorem execRxByte_withPort (b : Byte) (now : Timestamp) :
    execRxByte b now (s.withPort p) = resultWithPort p (execRxByte b now s) := by
  simp only [execRxByte, apply_ite (resultWithPort p)]
  refine ite_congr rfl (fun _ => rfl) fun _ => ite_congr rfl (fun _ => rfl) fun _ => ?_
  exact withStableConfig_withPort fun c => withAppended_withPort (judgeByte_withPort _ p c now)

theorem attemptRequest_withPort (c : Config) (now : Timestamp) :
    attemptRequest c now (s.withPort p) = resultWithPort p (attemptRequest c now s) := by
  refine withSelectedSlave_withPort fun a => ?_
  cases encodeRequest a c.startAddr c.regCount with
  | none => exact congrArg Host.Outcome.next (raiseError_withPort s.advanceCursor p .invalidParameter now a)
  | some f => rfl

theorem execTick_withPort (now : Timestamp) :
    execTick now (s.withPort p) = resultWithPort p (execTick now s) := by
  simp only [execTick, apply_ite (resultWithPort p)]
  refine ite_congr rfl (fun _ => rfl) fun _ => withStableConfig_withPort fun c => ?_
  rw [apply_ite (resultWithPort p)]
  refine ite_congr rfl (fun _ => withLastSendTs_withPort fun ts => ?_) fun _ => attemptRequest_withPort s p c now
  rw [apply_ite (resultWithPort p)]
  refine ite_congr rfl (fun _ => withCurSlave_withPort fun cur => ?_) fun _ => rfl
  rw [raiseError_withPort, attemptRequest_withPort]

theorem execTerr_withPort : execTerr (s.withPort p) = resultWithPort p (execTerr s) := by
  rw [execTerr, execTerr, apply_ite (resultWithPort p), raiseError_withPort]
  rfl

theorem execEncode_withPort (a start n : Nat) :
    execEncode a start n (s.withPort p) = resultWithPort p (execEncode a start n s) := by
  unfold execEncode
  cases encodeRequest a start n <;> rfl

theorem execDecode_withPort (frame : ResponseFrame) :
    execDecode frame (s.withPort p) = resultWithPort p (execDecode frame s) := by
  simp only [execDecode, apply_ite (resultWithPort p)]
  exact ite_congr rfl (fun _ => rfl) fun _ => withCurSlave_withPort fun _ => rfl

/-- R59: an operation does not touch what else stands on the port. -/
theorem exec_withPort (i : Instr) : exec i (s.withPort p) = resultWithPort p (exec i s) := by
  cases i with
  | nop | rst | crcInit | crcByte b => rfl
  | tick now => exact execTick_withPort s p now
  | rxByte b now => exact execRxByte_withPort s p b now
  | terr => exact execTerr_withPort s p
  | encode a n m => exact execEncode_withPort s p a n m
  | decode frame => exact execDecode_withPort s p frame

end

/-- A step over the encoding of an operation is the operation, with the rest of the port left. -/
theorem step_encode {i : Instr} (hi : i.wf = true) (s : State) (rest : List Stimulus) :
    step (s.withPort (encode i :: rest)) = resultWithPort rest (exec i s) :=
  (step_of_decode rfl (decode_encode hi)).trans (exec_withPort s rest i)

/-- A run over the encodings of a list is the list: a stop ends both, a next state goes on with the rest. -/
theorem run_withPort (l : List Instr) (hl : ∀ i ∈ l, i.wf = true) (s : State) :
    core.run l.length (s.withPort (l.map encode)) = execAll l (s.withPort []) := by
  induction l generalizing s with
  | nil => rfl
  | cons i t ih =>
    obtain ⟨hi, ht⟩ := List.forall_mem_cons.1 hl
    have hstep : core.step (s.withPort ((i :: t).map encode)) = resultWithPort (t.map encode) (exec i s) :=
      step_encode hi s (t.map encode)
    simp only [List.length_cons, Host.Core.run, hstep, execAll, exec_withPort]
    cases exec i s with
    | next u => exact ih ht u
    | fault f => rfl
    | refused r => rfl

/-- Settles O7, by induction on the list: each step takes the encoding of its operation off the port, and the operation
answers the same whatever else waits there. -/
theorem portRunIsOperationRun : Obligations.PortRunIsOperationRun :=
  fun s l hl => run_withPort l hl s

/-! The configuration (R65, R260, U2). -/

/-- The configuration in force and the configuration inputs are as they were. -/
def SameConfiguration (s t : State) : Prop := t.config = s.config ∧ t.configIn = s.configIn

theorem attemptRequest_sameConfiguration {c : Config} {now : Timestamp} {s t : State}
    (h : attemptRequest c now s = .next t) : SameConfiguration s t := by
  obtain ⟨-, a, -, ⟨-, rfl⟩ | ⟨-, rfl⟩⟩ := attemptRequest_next.1 h <;> exact ⟨rfl, rfl⟩

theorem execTick_sameConfiguration {now : Timestamp} {s t : State} (h : execTick now s = .next t) :
    SameConfiguration s t := by
  obtain ⟨-, rfl⟩ | ⟨-, -, ⟨-, h⟩ | ⟨-, ts, -, ⟨-, rfl⟩ | ⟨-, cur, -, h⟩⟩⟩ := execTick_next.1 h
  · exact ⟨rfl, rfl⟩
  · exact attemptRequest_sameConfiguration h
  · exact ⟨rfl, rfl⟩
  · exact attemptRequest_sameConfiguration (s := raiseError .timeout now cur.toNat s) h

theorem execRxByte_sameConfiguration {b : Byte} {now : Timestamp} {s t : State} (h : execRxByte b now s = .next t) :
    SameConfiguration s t := by
  obtain ⟨-, rfl⟩ | ⟨-, -, -, -, h⟩ := execRxByte_next.1 h
  · exact ⟨rfl, rfl⟩
  · obtain rfl | ⟨cur, -, rfl | rfl⟩ | ⟨frame, -, -, rfl⟩ := judgeByte_next h <;> exact ⟨rfl, rfl⟩

/-- Only `RST` writes the configuration in force, and nothing writes the inputs. -/
theorem exec_sameConfiguration {i : Instr} {s t : State} (hrst : i ≠ .rst) (h : exec i s = .next t) :
    SameConfiguration s t := by
  cases i with
  | nop => obtain rfl := next_eq.1 h; exact ⟨rfl, rfl⟩
  | rst => exact absurd rfl hrst
  | tick now => exact execTick_sameConfiguration h
  | rxByte b now => exact execRxByte_sameConfiguration h
  | terr => obtain ⟨-, rfl⟩ | ⟨-, rfl⟩ := execTerr_next.1 h <;> exact ⟨rfl, rfl⟩
  | crcInit => obtain rfl := next_eq.1 h; exact ⟨rfl, rfl⟩
  | crcByte b => obtain rfl := next_eq.1 h; exact ⟨rfl, rfl⟩
  | encode a n m => obtain ⟨r, rfl⟩ := execEncode_next h; exact ⟨rfl, rfl⟩
  | decode frame => obtain ⟨r, rfl⟩ := execDecode_next h; exact ⟨rfl, rfl⟩

/-- Where inputs and configuration in force differ, using the latter is refused (U2). -/
theorem withStableConfig_of_ne {s : State} (h : s.configIn ≠ s.config) (k : Config → Result) :
    withStableConfig s k = .refused .configurationChanged := if_neg h

theorem execTick_of_changed {s : State} (now : Timestamp) (hh : s.halted = false) (hc : s.configIn ≠ s.config) :
    execTick now s = .refused .configurationChanged := by
  simp [execTick, State.pollingHalted, hh, withStableConfig_of_ne hc]

theorem execRxByte_of_changed {s : State} (b : Byte) (now : Timestamp) (hh : s.halted = false)
    (hc : s.configIn ≠ s.config) (ha : s.asmState = .accumulating) :
    execRxByte b now s = .refused .configurationChanged := by
  simp [execRxByte, State.pollingHalted, State.outstanding, hh, ha, withStableConfig_of_ne hc]

/-- Settles O12: a frame lemma over the operations for who writes the two configurations, and the refusal of each
operation that reads them. -/
theorem configurationIsSampledAtReset : Obligations.ConfigurationIsSampledAtReset := by
  refine ⟨fun i s t h => ?_, fun s now b hh hc =>
    ⟨execTick_of_changed now hh hc, execRxByte_of_changed b now hh hc⟩⟩
  by_cases hrst : i = .rst
  · subst hrst
    obtain rfl := next_eq.1 h
    exact ⟨rfl, absurd rfl, fun _ => rfl⟩
  · obtain ⟨hconfig, hin⟩ := exec_sameConfiguration hrst h
    exact ⟨hin, fun _ => hconfig, fun hi => absurd hi hrst⟩

end Sys2Proof.Machine

/-! Proofs, family 30_encoding.md: the decoder's answers by operation code (R72, R80), the words written out from the
formats (R73, R75), the verdict of `DECODE` (R76, R155 to R159) and the packed report (R78). -/

namespace Sys2Proof.Machine

/-! The round trip and the words written out (R71 to R76). -/

/-- Settles O3, by `decode_encode`: a case per operation; an event word gives back its two fields, a request or response
frame its operands. -/
theorem decodeEncodeRoundTrip : Obligations.DecodeEncodeRoundTrip :=
  fun _ h => decode_encode h

/-- Settles O2: the event words and the request frame by evaluation; the response frame is the wire form of its own
fields, which the decoder reads back. -/
theorem writtenOutWordsDecode : Obligations.WrittenOutWordsDecode :=
  ⟨by decide, by decide, by decide, by decide, by decide, by decide, by decide, by decide, rfl,
    decodeCall_responseBytes (f := ⟨0x01, 0x03, 0x04, [0x0271, 0x0064], 0x7BAA⟩) (by decide)⟩

/-! The event word by its operation code (R72, R80). -/

/-- R72: the mask keeps `op` and clears `data`. -/
theorem eventWord_and_opMask (op : BitVec 4) (d : Byte) : eventWord op d &&& 0xF00#12 = op.setWidth 12 <<< 8 := by
  have hmask : 0xF00#12 = BitVec.allOnes 4 ++ 0#8 := by decide
  rw [eventWord, hmask, BitVec.and_append, BitVec.and_allOnes, BitVec.and_zero, BitVec.append_def]
  simp [BitVec.shiftLeftZeroExtend_eq]

theorem decode_reserved {op : BitVec 4} (hop : op ∈ [0x5#4, 0x6#4, 0x7#4, 0xA#4, 0xB#4, 0xC#4, 0xD#4, 0xE#4, 0xF#4])
    (d : Byte) (now : Timestamp) : decode (.event (eventWord op d) now) = .error (.reservedOp op) := by
  simp only [decode, decodeEvent, Laws.eventOp_eventWord]
  fin_cases hop <;> rfl

/-- Settles O1: the mask splits into the two fields, the decoder sees the word through them only, and it answers by the
first. -/
theorem eventWordsDecodeByOpcode : Obligations.EventWordsDecodeByOpcode := by
  refine ⟨eventWord_and_opMask, fun d now => ⟨?_, ?_, ?_, ?_, ?_, ?_, ?_, fun op hop => decode_reserved hop d now⟩⟩
  all_goals simp [decode, decodeEvent, Laws.eventOp_eventWord, Laws.eventData_eventWord]

/-- A stimulus that is no operation is refused with the decoder's reason (R80). -/
theorem step_of_undecodable {s : State} {x : Stimulus} {rest : List Stimulus} {e : DecodeError}
    (hp : s.port = x :: rest) (hd : decode x = .error e) : step s = .refused (.undecodable e) := by
  simp only [step, hp, hd]

/-- Settles O6: the decoder names the reserved code, and the step refuses what the decoder rejects. -/
theorem reservedCodesAreRefused : Obligations.ReservedCodesAreRefused :=
  fun _ _ _ d now hop hp => step_of_undecodable hp (decode_reserved hop d now)

/-! The verdict of `DECODE` (R155 to R160). -/

theorem loByte_hiByte_inj {v w : Word16} : loByte v = loByte w ∧ hiByte v = hiByte w ↔ v = w := by
  refine ⟨fun ⟨hlo, hhi⟩ => ?_, fun h => h ▸ ⟨rfl, rfl⟩⟩
  rw [← wordOf_hi_lo v, ← wordOf_hi_lo w, hlo, hhi]

/-- The check of R159 on a response compares its checksum field with the checksum of the bytes before it. -/
theorem checksumOk_responseBytes (f : ResponseFrame) :
    checksumOk (responseBytes f) = true ↔
      f.checksum = crc16 ((responseBytes f).take (3 + 2 * f.registers.length)) := by
  have hlen : (responseBytes f).length - 2 = 3 + 2 * f.registers.length := by rw [responseBytes_length]; omega
  have htail : (responseBytes f).drop (3 + 2 * f.registers.length) = [loByte f.checksum, hiByte f.checksum] := by
    simp [responseBytes, Nat.add_comm 3]
  simp only [checksumOk, hlen, htail, Bool.and_eq_true, decide_eq_true_eq, loByte_hiByte_inj]

/-- Two bytes are one register; an odd last byte belongs to none (R51, R160). -/
theorem registersOf_length : ∀ l : List Byte, (registersOf l).length = l.length / 2
  | [] => rfl
  | [_] => by simp [registersOf]
  | _ :: _ :: t => by simp [registersOf, registersOf_length t]; omega

theorem responseOf_registers_length (bytes : List Byte) :
    (responseOf bytes).registers.length = (bytes.length - 5) / 2 := by
  simp [responseOf, registersOf_length]; omega

/-- R155 to R160: a sequence is accepted when every check in byte order holds, the frame is full, and the bytes up to
its own length carry their checksum. -/
theorem decodeResponse_accepted_iff {cur : Byte} {n : Nat} {bytes : List Byte} {g : ResponseFrame} :
    decodeResponse cur n bytes = .accepted g ↔
      bytes[0]? = some cur ∧ bytes[1]? = some funcCode ∧
      ∃ c, bytes[2]? = some c ∧ c.toNat = requestedByteCount n ∧ expectedTotal c ≤ bytes.length ∧
        checksumOk (bytes.take (expectedTotal c)) = true ∧ responseOf (bytes.take (expectedTotal c)) = g := by
  match bytes with
  | [] => simp [decodeResponse]
  | [a] => simp [decodeResponse, ite_eq_iff]
  | [a, f] => simp [decodeResponse, ite_eq_iff]
  | a :: f :: c :: t => simp [decodeResponse, ite_eq_iff]

/-- `DECODE` returns its operand when the header checks hold, no register is missing or left over, and the checksum
field is that of the bytes before it: a response cut at its own length has the declared number of registers. -/
theorem decodeResponse_accepts_itself_iff {cur : Byte} {n : Nat} {f : ResponseFrame} :
    decodeResponse cur n (responseBytes f) = .accepted f ↔
      f.slaveAddress = cur ∧ f.functionCode = funcCode ∧ f.byteCount.toNat = requestedByteCount n ∧
      f.registers.length = n ∧ f.checksum = crc16 ((responseBytes f).take (3 + 2 * f.registers.length)) := by
  have hheader : (responseBytes f)[0]? = some f.slaveAddress ∧ (responseBytes f)[1]? = some f.functionCode ∧
      (responseBytes f)[2]? = some f.byteCount := ⟨rfl, rfl, rfl⟩
  simp only [decodeResponse_accepted_iff, hheader, Option.some.injEq, exists_eq_left']
  refine and_congr_right fun _ => and_congr_right fun _ => and_congr_right fun hcount => ?_
  have htotal : expectedTotal f.byteCount = 5 + 2 * n := by
    rw [expectedTotal, hcount, requestedByteCount]; omega
  have hlen := responseBytes_length f
  have hwhole : f.registers.length = n → (responseBytes f).take (expectedTotal f.byteCount) = responseBytes f :=
    fun hn => List.take_of_length_le (by omega)
  constructor
  · rintro ⟨hfull, hcheck, hself⟩
    have hn : f.registers.length = n := by
      rw [← hself, responseOf_registers_length, List.length_take, Nat.min_eq_left hfull]; omega
    rw [hwhole hn] at hcheck
    exact ⟨hn, (checksumOk_responseBytes f).1 hcheck⟩
  · rintro ⟨hn, hcheck⟩
    rw [hwhole hn]
    exact ⟨by omega, (checksumOk_responseBytes f).2 hcheck, responseOf_responseBytes f⟩

theorem execDecode_of_outstanding {s : State} {cur : Byte} (f : ResponseFrame) (ha : s.asmState = .accumulating)
    (hc : s.curSlave = some cur) :
    execDecode f s =
      .next (s.setCallResult (.verdict (decodeResponse cur s.config.regCount (responseBytes f)))) := by
  simp [execDecode, State.outstanding, ha, withCurSlave, hc]

/-- Settles O26: the call with its two reads, and the verdict by the checks of `DECODE` in byte order. -/
theorem decodeAcceptsExactlyTheCorrectFrames : Obligations.DecodeAcceptsExactlyTheCorrectFrames :=
  fun _ _ f ha hc => ⟨execDecode_of_outstanding f ha hc, decodeResponse_accepts_itself_iff⟩

/-! The packed report (R78, R220, R236). -/

/-- Settles O58, by the three cases of `packReport` and the cause codes of R220. -/
theorem packedReportHasItsCodes : Obligations.PackedReportHasItsCodes :=
  fun _ _ _ => ⟨rfl, rfl, rfl, rfl, rfl⟩

end Sys2Proof.Machine

/-! Proofs, family 40_crc.md: the bit step is linear and loses nothing (R100), and so are the byte step and the fold
(R101, R102); from that the hardware forms (R108, R109, R112), the residual (R110) and the single bit flip (R111). Then
the register of the unit: its two operations (R104, R105), and that no other one reads or writes it (R106, R107). -/

namespace Sys2Proof.Machine

/-! The bit step (R100). -/

theorem crc16Bit_getLsbD (r : Word16) (i : Nat) :
    (crc16Bit r).getLsbD i = (r.getLsbD (i + 1) ^^ (r.getLsbD 0 && crcPoly.getLsbD i)) := by
  unfold crc16Bit
  cases h : r.getLsbD 0 <;> simp [Nat.add_comm]

theorem crc16Bit_xor (x y : Word16) : crc16Bit (x ^^^ y) = crc16Bit x ^^^ crc16Bit y := by
  refine BitVec.eq_of_getLsbD_eq fun i _ => ?_
  simp only [crc16Bit_getLsbD, BitVec.getLsbD_xor, Bool.and_xor_distrib_right, Bool.xor_left_comm, Bool.xor_assoc]

/-- R111: bit 15 of the result is the bit shifted out, which tells whether the polynomial was applied. -/
theorem crc16Bit_injective : Function.Injective crc16Bit := by
  intro x y h
  have hbit (i : Nat) : (x.getLsbD (i + 1) ^^ (x.getLsbD 0 && crcPoly.getLsbD i)) =
      (y.getLsbD (i + 1) ^^ (y.getLsbD 0 && crcPoly.getLsbD i)) := by
    rw [← crc16Bit_getLsbD, ← crc16Bit_getLsbD, h]
  have hlow : x.getLsbD 0 = y.getLsbD 0 := by simpa [crcPoly] using hbit 15
  refine BitVec.eq_of_getLsbD_eq fun i _ => ?_
  cases i with
  | zero => exact hlow
  | succ i => exact Bool.xor_left_inj.1 (hlow ▸ hbit i)

/-! Several bit steps. -/

/-- The model's iteration is the library's, whose lemmas the next two cite. -/
theorem iterated_eq_iterate {α : Type} (f : α → α) (n : Nat) : iterated f n = f^[n] := by
  induction n with
  | zero => rfl
  | succ n ih => funext x; exact congrFun ih (f x)

theorem iterated_add {α : Type} (f : α → α) (m n : Nat) (x : α) :
    iterated f (m + n) x = iterated f m (iterated f n x) := by
  simp only [iterated_eq_iterate, Function.iterate_add_apply]

theorem iterated_succ_apply' {α : Type} (f : α → α) (n : Nat) (x : α) :
    iterated f (n + 1) x = f (iterated f n x) := by
  simp only [iterated_eq_iterate, Function.iterate_succ_apply']

theorem iterated_crc16Bit_xor (n : Nat) (x y : Word16) :
    iterated crc16Bit n (x ^^^ y) = iterated crc16Bit n x ^^^ iterated crc16Bit n y := by
  induction n generalizing x y with
  | zero => rfl
  | succ n ih => simp only [iterated, crc16Bit_xor, ih]

theorem iterated_crc16Bit_injective (n : Nat) : Function.Injective (iterated crc16Bit n) :=
  iterated_eq_iterate crc16Bit n ▸ crc16Bit_injective.iterate n

theorem iterated_crc16Bit_eq_zero {n : Nat} {x : Word16} : iterated crc16Bit n x = 0#16 ↔ x = 0#16 := by
  have hzero : iterated crc16Bit n 0#16 = 0#16 := by simp [iterated_crc16Bit_of_low_zero]
  have hiff := (iterated_crc16Bit_injective n).eq_iff (a := x) (b := 0#16)
  rwa [hzero] at hiff

/-- Bits that stand at position `n` and above come down unchanged, for none of them is at position 0 in these steps. -/
theorem iterated_crc16Bit_shiftLeft {n : Nat} {x : Word16} (h : (x <<< n) >>> n = x) :
    iterated crc16Bit n (x <<< n) = x := by
  rw [iterated_crc16Bit_of_low_zero n _ fun i hi => ?_, h]
  simp [hi]

/-! The byte step and the fold (R101, R102). -/

/-- R110: the byte step is linear over exclusive OR in the pair. -/
theorem crc16Byte_xor (r1 r2 : Word16) (b1 b2 : Byte) :
    crc16Byte (r1 ^^^ r2) (b1 ^^^ b2) = crc16Byte r1 b1 ^^^ crc16Byte r2 b2 := by
  rw [crc16Byte, crc16Byte, crc16Byte, ← iterated_crc16Bit_xor, BitVec.setWidth_xor]
  ac_rfl

theorem crc16Byte_right_injective (r : Word16) : Function.Injective (crc16Byte r) := by
  intro b c h
  have hword := (BitVec.xor_right_inj _).1 (iterated_crc16Bit_injective 8 h)
  simpa using congrArg (BitVec.setWidth 8) hword

theorem crc16Byte_left_injective (b : Byte) : Function.Injective fun r => crc16Byte r b :=
  fun _ _ h => (BitVec.xor_left_inj _).1 (iterated_crc16Bit_injective 8 h)

theorem crc16Update_left_injective (l : List Byte) : Function.Injective fun r => crc16Update r l := by
  induction l with
  | nil => exact fun _ _ h => h
  | cons b t ih => exact fun _ _ h => crc16Byte_left_injective b (ih h)

/-- Settles O17: the two equations of `crc16Update`, and its fold over a concatenation. -/
theorem checksumFoldsInPieces : Obligations.ChecksumFoldsInPieces :=
  ⟨fun _ => rfl, fun _ _ _ => rfl, crc16Update_append⟩

/-! The table form (R108). -/

/-- R108: the high byte of the register shifts down, and the low byte alone decides which exclusive ORs are applied. -/
theorem crc16Byte_eq_shift_xor (r : Word16) (b : Byte) :
    crc16Byte r b = r >>> 8 ^^^ crc16Byte 0#16 (loByte r ^^^ b) := by
  rw [← crc16Byte_loByte, ← crc16Byte_xor, BitVec.xor_zero, ← BitVec.xor_assoc, BitVec.xor_self, BitVec.zero_xor]

set_option maxRecDepth 4000 in
/-- The 256 listed entries, compared with their computation from R100. -/
theorem crcTable_eq_map_range :
    crcTable = (List.range 256).map fun i => iterated crc16Bit 8 (BitVec.ofNat 16 i) := by
  decide

theorem crcTable_getElem? {i : Nat} (h : i < 256) :
    crcTable[i]? = some (iterated crc16Bit 8 (BitVec.ofNat 16 i)) := by
  simp [crcTable_eq_map_range, h]

theorem tableIndex_eq (r : Word16) (b : Byte) :
    (r ^^^ b.setWidth 16) &&& 0xFF#16 = (loByte r ^^^ b).setWidth 16 := by
  have hmask : 0xFF#16 = (BitVec.allOnes 8).setWidth 16 := by decide
  ext i hi
  by_cases h8 : i < 8 <;>
    simp [hmask, loByte, h8, hi, Nat.le_of_not_lt, -BitVec.reduceSetWidth, -BitVec.reduceAllOnes]

theorem crc16ByteTable_eq (r : Word16) (b : Byte) : crc16ByteTable r b = crc16Byte r b := by
  have hentry : crcTable.getD (loByte r ^^^ b).toNat 0#16 = crc16Byte 0#16 (loByte r ^^^ b) := by
    rw [List.getD_eq_getElem?_getD, crcTable_getElem? (loByte r ^^^ b).isLt, crc16Byte, BitVec.zero_xor,
      BitVec.ofNat_toNat, Option.getD_some]
  rw [crc16ByteTable, tableIndex_eq, BitVec.toNat_setWidth_of_le (by decide), hentry, ← crc16Byte_eq_shift_xor]

/-- Settles O18: the entries by evaluation, and the table form by linearity. -/
theorem tableFormIsCrcByte : Obligations.TableFormIsCrcByte :=
  ⟨fun _ => crcTable_getElem?, crc16ByteTable_eq⟩

/-! The XOR network (R109). -/

/-- The bit that step `n` on `x` shifts out of the register and feeds back. -/
def fedBack (x : Word16) (n : Nat) : Bool := (iterated crc16Bit n x).getLsbD 0

theorem iterated_succ_getLsbD (x : Word16) (n i : Nat) :
    (iterated crc16Bit (n + 1) x).getLsbD i =
      ((iterated crc16Bit n x).getLsbD (i + 1) ^^ (fedBack x n && crcPoly.getLsbD i)) := by
  rw [iterated_succ_apply', crc16Bit_getLsbD, fedBack]

/-- Bits that come from below tap 13 only shift, down to bit 1. -/
theorem iterated_getLsbD_below_taps (x : Word16) (n i : Nat) (h : i + 1 + n < 14) :
    (iterated crc16Bit n x).getLsbD (i + 1) = x.getLsbD (i + 1 + n) := by
  induction n generalizing i with
  | zero => rfl
  | succ n ih =>
    have hi : i < 12 := by omega
    have htap : crcPoly.getLsbD (i + 1) = false := by
      clear h
      interval_cases i <;> rfl
    rw [iterated_succ_getLsbD, htap, Bool.and_false, Bool.xor_false, ih _ (by omega),
      show i + 1 + 1 + n = i + 1 + (n + 1) by omega]

/-- A bit of the register is the difference of two bits fed back: tap 0 alone reaches bit 0 so soon. -/
theorem getLsbD_eq_fedBack_xor (x : Word16) {n : Nat} (hpos : 0 < n) (h : n < 13) :
    x.getLsbD n = (fedBack x n ^^ fedBack x (n - 1)) := by
  obtain ⟨m, rfl⟩ : ∃ m, n = m + 1 := ⟨n - 1, by omega⟩
  rw [fedBack, iterated_succ_getLsbD, iterated_getLsbD_below_taps x m 0 (by omega), Nat.zero_add, Nat.add_comm]
  simp [crcPoly]

/-- Eight steps: a shift by eight, and the polynomial for each bit fed back, shifted by the steps that follow. -/
theorem iterated_eight_getLsbD (x : Word16) (i : Nat) :
    (iterated crc16Bit 8 x).getLsbD i =
      (x.getLsbD (i + 8) ^^ (fedBack x 0 && crcPoly.getLsbD (i + 7)) ^^ (fedBack x 1 && crcPoly.getLsbD (i + 6)) ^^
        (fedBack x 2 && crcPoly.getLsbD (i + 5)) ^^ (fedBack x 3 && crcPoly.getLsbD (i + 4)) ^^
        (fedBack x 4 && crcPoly.getLsbD (i + 3)) ^^ (fedBack x 5 && crcPoly.getLsbD (i + 2)) ^^
        (fedBack x 6 && crcPoly.getLsbD (i + 1)) ^^ (fedBack x 7 && crcPoly.getLsbD i)) := by
  simp only [iterated_succ_getLsbD]
  rfl

/-- The network over the register after the byte is in it. In bits fed back its parities telescope (the parity of the
low byte is the last one), and each equation is the one of the eight steps. -/
theorem iterated_eight_eq_netBit (x : Word16) {i : Nat} (hi : i < 16) :
    (iterated crc16Bit 8 x).getLsbD i = crc16NetBit x.getLsbD x.getLsbD i := by
  have hzero : x.getLsbD 0 = fedBack x 0 := rfl
  have hpos (n : Nat) (h0 : 0 < n) (h8 : n < 8) : x.getLsbD n = (fedBack x n ^^ fedBack x (n - 1)) :=
    getLsbD_eq_fedBack_xor x h0 (by omega)
  have htelescope (a b : Bool) : (a ^^ (b ^^ a)) = b := by cases a <;> simp
  have hbetween (a b c : Bool) : (a ^^ b ^^ (c ^^ a)) = (b ^^ c) := by cases a <;> simp
  rw [iterated_eight_getLsbD]
  simp (disch := decide) only [crc16NetBit, hzero, hpos, Nat.reduceSub, Bool.bne_self_left, htelescope, hbetween]
  interval_cases i <;> simp [crcPoly, -BitVec.getLsbD_eq_getElem, Bool.xor_comm]

/-- The network reads the high byte of the register in `c` and the low byte in `e`. -/
theorem crc16NetBit_congr {c c' e e' : Nat → Bool} (hc : ∀ j, 8 ≤ j → c j = c' j) (he : ∀ j < 8, e j = e' j)
    (i : Nat) : crc16NetBit c e i = crc16NetBit c' e' i := by
  unfold crc16NetBit
  simp only [he, hc, Nat.reduceLT, Nat.reduceLeDiff]

theorem crc16Byte_getLsbD (r : Word16) (b : Byte) {i : Nat} (h : i < 16) :
    (crc16Byte r b).getLsbD i =
      crc16NetBit (fun j => r.getLsbD j) (fun j => r.getLsbD j ^^ b.getLsbD j) i := by
  rw [crc16Byte, iterated_eight_eq_netBit _ h]
  refine crc16NetBit_congr (fun j hj => ?_) (fun j hj => ?_) i
  · simp [BitVec.getLsbD_of_ge b j hj]
  · simp [show j < 16 by omega]

/-- Settles O19: the eight bit steps carried out over the bits fed back. -/
theorem xorNetworkIsCrcByte : Obligations.XorNetworkIsCrcByte :=
  fun r b _ => crc16Byte_getLsbD r b

/-! The bit-serial form (R112). -/

/-- One bit of the byte, as the register sees it. -/
def dataBit (d : Bool) : Word16 := if d then 1#16 else 0#16

theorem dataBit_getLsbD (d : Bool) (i : Nat) : (dataBit d).getLsbD i = (decide (i = 0) && d) := by
  cases d <;> simp [dataBit, BitVec.getLsbD_one]

theorem dataBit_shiftLeft_ushiftRight (d : Bool) {n : Nat} (h : n < 8) : (dataBit d <<< n) >>> n = dataBit d := by
  cases d
  · simp [dataBit]
  · interval_cases n <;> rfl

/-- A clock of the serial form is the bit step on the register with the data bit in it. -/
theorem crc16SerialBit_eq (r : Word16) (d : Bool) : crc16SerialBit r d = crc16Bit (r ^^^ dataBit d) := by
  have hbit : crc16Bit (dataBit d) = if d then crcPoly else 0#16 := by cases d <;> rfl
  rw [crc16Bit_xor, hbit]
  unfold crc16SerialBit crc16Bit
  cases r.getLsbD 0 <;> cases d <;> simp

/-- The low `n` bits of a byte, as the register sees them. -/
def lowBits (n : Nat) (b : Byte) : Word16 := (b.setWidth n).setWidth 16

theorem lowBits_succ (n : Nat) (b : Byte) :
    lowBits (n + 1) b = lowBits n b ^^^ dataBit (b.getLsbD n) <<< n := by
  refine BitVec.eq_of_getLsbD_eq fun i hi => ?_
  simp only [lowBits, BitVec.getLsbD_xor, BitVec.getLsbD_shiftLeft, BitVec.getLsbD_setWidth, dataBit_getLsbD]
  obtain h | rfl | h := Nat.lt_trichotomy i n
  · simp [h, Nat.lt_succ_of_lt h]
  · simp
  · simp [show ¬ i < n by omega, show ¬ i < n + 1 by omega, Nat.sub_ne_zero_of_lt h]

/-- A bit fed in at clock `n` acts as one that stood at position `n` from the start. -/
theorem foldl_crc16SerialBit (r : Word16) (b : Byte) {n : Nat} (hn : n ≤ 8) :
    (List.range n).foldl (fun acc j => crc16SerialBit acc (b.getLsbD j)) r =
      iterated crc16Bit n (r ^^^ lowBits n b) := by
  induction n with
  | zero => simp [iterated, lowBits, BitVec.of_length_zero]
  | succ n ih =>
    have hbit : iterated crc16Bit n (dataBit (b.getLsbD n) <<< n) = dataBit (b.getLsbD n) :=
      iterated_crc16Bit_shiftLeft (dataBit_shiftLeft_ushiftRight _ hn)
    rw [List.range_succ, List.foldl_append, ih (by omega), List.foldl_cons, List.foldl_nil, crc16SerialBit_eq,
      iterated_succ_apply', lowBits_succ, ← BitVec.xor_assoc, iterated_crc16Bit_xor n (_ ^^^ _), hbit]

theorem crc16ByteSerial_eq (r : Word16) (b : Byte) : crc16ByteSerial r b = crc16Byte r b := by
  rw [crc16ByteSerial, foldl_crc16SerialBit r b le_rfl, lowBits, BitVec.setWidth_eq, crc16Byte]

/-- Settles O20: the first form is the definition; the second by induction on the bits fed in. -/
theorem bitSerialFormIsCrcByte : Obligations.BitSerialFormIsCrcByte :=
  fun r b => ⟨rfl, crc16ByteSerial_eq r b⟩

/-! The residual (R110). -/

theorem loByte_wordOf (h l : Byte) : loByte (wordOf h l) = l := BitVec.extractLsb'_append_eq_right

theorem hiByte_wordOf (h l : Byte) : hiByte (wordOf h l) = h := BitVec.extractLsb'_append_eq_left

theorem wordOf_eq_xor (h l : Byte) : wordOf h l = l.setWidth 16 ^^^ h.setWidth 16 <<< 8 := by
  ext i hi
  rw [wordOf, BitVec.getElem_append]
  by_cases h8 : i < 8
  · simp [h8]
  · simp [h8, BitVec.getLsbD_of_ge l i (by omega), BitVec.getLsbD_eq_getElem (show i - 8 < 8 by omega)]

theorem setWidth_shiftLeft_ushiftRight (y : Byte) : (y.setWidth 16 <<< 8) >>> 8 = y.setWidth 16 := by
  refine BitVec.eq_of_getLsbD_eq fun i hi => ?_
  simp only [BitVec.getLsbD_ushiftRight, BitVec.getLsbD_shiftLeft, BitVec.getLsbD_setWidth]
  by_cases h : i < 8
  · simp [hi]; omega
  · simp [BitVec.getLsbD_of_ge y i (by omega)]

/-- Folding in two bytes is sixteen bit steps on the register with both in it: the second byte comes down unchanged
while the first is worked off. -/
theorem crc16Update_pair (r : Word16) (x y : Byte) :
    crc16Update r [x, y] = iterated crc16Bit 16 (r ^^^ wordOf y x) := by
  have hhigh : iterated crc16Bit 8 (y.setWidth 16 <<< 8) = y.setWidth 16 :=
    iterated_crc16Bit_shiftLeft (setWidth_shiftLeft_ushiftRight y)
  rw [wordOf_eq_xor, ← BitVec.xor_assoc, iterated_add crc16Bit 8 8, iterated_crc16Bit_xor 8 (r ^^^ _), hhigh]
  rfl

theorem crc16_append_pair_eq_zero {s : List Byte} {x y : Byte} :
    crc16 (s ++ [x, y]) = 0#16 ↔ x = loByte (crc16 s) ∧ y = hiByte (crc16 s) := by
  rw [crc16, crc16Update_append, crc16Update_pair, iterated_crc16Bit_eq_zero, BitVec.xor_eq_zero_iff,
    ← loByte_hiByte_inj, loByte_wordOf, hiByte_wordOf, eq_comm, @eq_comm _ y, crc16]

/-- Settles O21: two bytes leave zero exactly when they are the register, low byte first; the checksum of the single
byte 0, 0x40BF, has two different bytes. -/
theorem checksumHasZeroResidual : Obligations.ChecksumHasZeroResidual :=
  ⟨crc16_withChecksum, fun _ _ _ => crc16_append_pair_eq_zero.symm, crc16Byte_xor,
    [0], fun h => absurd (crc16_append_pair_eq_zero.1 h).1 (by decide)⟩

/-! A single bit flip (R111). -/

/-- Changing one byte changes the checksum: the byte step tells the two bytes apart, and the rest of the fold keeps the
two registers apart. -/
theorem crc16Update_modify_ne {g : Byte → Byte} (hg : ∀ b, g b ≠ b) (r : Word16) {l : List Byte} {i : Nat}
    (h : i < l.length) : crc16Update r (l.modify i g) ≠ crc16Update r l := by
  induction l generalizing r i with
  | nil => simp at h
  | cons b t ih =>
    cases i with
    | zero => exact fun heq => hg b (crc16Byte_right_injective r (crc16Update_left_injective t heq))
    | succ i => exact ih (crc16Byte r b) (Nat.lt_of_succ_lt_succ h)

theorem xor_bit_ne {j : Nat} (hj : j < 8) (b : Byte) : b ^^^ 1#8 <<< j ≠ b := by
  intro h
  have hbit := congrArg (BitVec.getLsbD · j) h
  simp [hj] at hbit

/-- Settles O22: a flipped bit changes its byte, hence the checksum, which was zero. -/
theorem singleBitFlipChangesResidual : Obligations.SingleBitFlipChangesResidual :=
  fun _ k hf hk => hf ▸ crc16Update_modify_ne (xor_bit_ne (Nat.mod_lt k (by decide))) crcInitValue
    (Nat.div_lt_of_lt_mul hk)

/-! The two operations of the unit (R104, R105). -/

/-- Settles O13: the decoder's answer to code 8, and the operation's equation. -/
theorem crcInitLoadsInitialValue : Obligations.CrcInitLoadsInitialValue := by
  refine ⟨fun d now => ?_, fun _ => rfl⟩
  obtain ⟨-, -, -, -, -, hinit, -⟩ := eventWordsDecodeByOpcode.2 d now
  exact hinit

/-- Settles O14: the decoder's answer to code 9, the operation's equation, and the two worked values by evaluation. -/
theorem crcByteFoldsOneByte : Obligations.CrcByteFoldsOneByte := by
  refine ⟨fun d now => ?_, fun _ _ => rfl, by decide, by decide⟩
  obtain ⟨-, -, -, -, -, -, hbyte, -⟩ := eventWordsDecodeByOpcode.2 d now
  exact hbyte

/-! A change of the next state alone passes through the reads and the branches of an operation. -/

/-- Change the state of a next state, and leave a stop as it is. -/
def mapNext (u : State → State) : Result → Result
  | .next s => .next (u s)
  | .fault f => .fault f
  | .refused r => .refused r

section
variable (u : State → State) (s : State)

@[simp] theorem mapNext_next : mapNext u (.next s) = .next (u s) := rfl
@[simp] theorem mapNext_fault (f : Fault) : mapNext u (.fault f) = .fault f := rfl
@[simp] theorem mapNext_refused (r : Refusal) : mapNext u (.refused r) = .refused r := rfl

@[simp] theorem mapNext_ite (p : Prop) [Decidable p] (a b : Result) :
    mapNext u (if p then a else b) = if p then mapNext u a else mapNext u b := apply_ite _ _ _ _

@[simp] theorem mapNext_withCurSlave (k : Byte → Result) :
    mapNext u (withCurSlave s k) = withCurSlave s fun a => mapNext u (k a) := by
  unfold withCurSlave; cases s.curSlave <;> rfl

@[simp] theorem mapNext_withLastSendTs (k : Timestamp → Result) :
    mapNext u (withLastSendTs s k) = withLastSendTs s fun ts => mapNext u (k ts) := by
  unfold withLastSendTs; cases s.lastSendTs <;> rfl

@[simp] theorem mapNext_withBufByte (i : Nat) (k : Byte → Result) :
    mapNext u (withBufByte s i k) = withBufByte s i fun b => mapNext u (k b) := by
  unfold withBufByte; cases Memory.read s.buf i <;> rfl

@[simp] theorem mapNext_withBufBytes (n : Nat) (k : List Byte → Result) :
    mapNext u (withBufBytes s n k) = withBufBytes s n fun l => mapNext u (k l) := by
  unfold withBufBytes; cases Memory.readRange s.buf 0 n <;> rfl

@[simp] theorem mapNext_withAppended (b : Byte) (k : State → Result) :
    mapNext u (withAppended s b k) = withAppended s b fun s1 => mapNext u (k s1) := by
  unfold withAppended; split <;> rfl

@[simp] theorem mapNext_withStableConfig (k : Config → Result) :
    mapNext u (withStableConfig s k) = withStableConfig s fun c => mapNext u (k c) := by
  unfold withStableConfig; split <;> rfl

@[simp] theorem mapNext_withSelectedSlave (c : Config) (k : Nat → Result) :
    mapNext u (withSelectedSlave c s k) = withSelectedSlave c s fun a => mapNext u (k a) := by
  unfold withSelectedSlave; cases c.slaves[s.cursorIdx]? <;> simp

end

/-! The reads and updates of the other units do not meet `crc` (R21). -/

section
variable (v : Word16) (s : State)

@[simp] theorem pollingHalted_setCrc : (s.setCrc v).pollingHalted = s.pollingHalted := rfl
@[simp] theorem outstanding_setCrc : (s.setCrc v).outstanding = s.outstanding := rfl

@[simp] theorem withCurSlave_setCrc (k : Byte → Result) : withCurSlave (s.setCrc v) k = withCurSlave s k := rfl

@[simp] theorem withLastSendTs_setCrc (k : Timestamp → Result) :
    withLastSendTs (s.setCrc v) k = withLastSendTs s k := rfl

@[simp] theorem withBufByte_setCrc (i : Nat) (k : Byte → Result) :
    withBufByte (s.setCrc v) i k = withBufByte s i k := rfl

@[simp] theorem withBufBytes_setCrc (n : Nat) (k : List Byte → Result) :
    withBufBytes (s.setCrc v) n k = withBufBytes s n k := rfl

@[simp] theorem withAppended_setCrc (b : Byte) (k : State → Result) :
    withAppended (s.setCrc v) b k = withAppended s b fun s1 => k (s1.setCrc v) := rfl

@[simp] theorem withStableConfig_setCrc (k : Config → Result) :
    withStableConfig (s.setCrc v) k = withStableConfig s k := rfl

@[simp] theorem withSelectedSlave_setCrc (c : Config) (k : Nat → Result) :
    withSelectedSlave c (s.setCrc v) k = withSelectedSlave c s k := rfl

@[simp] theorem advanceCursor_setCrc : (s.setCrc v).advanceCursor = s.advanceCursor.setCrc v := rfl

@[simp] theorem raiseError_setCrc (k : ErrorKind) (now : Timestamp) (addr : Nat) :
    raiseError k now addr (s.setCrc v) = (raiseError k now addr s).setCrc v := by
  cases k <;> rfl

@[simp] theorem completeCycle_setCrc (frame : List Byte) (now : Timestamp) :
    completeCycle frame now (s.setCrc v) = (completeCycle frame now s).setCrc v := rfl

@[simp] theorem sendRequest_setCrc (a : Nat) (frame : List Byte) (now : Timestamp) :
    sendRequest a frame now (s.setCrc v) = (sendRequest a frame now s).setCrc v := rfl

/-! The operations outside the unit, one by one (R107). -/

@[simp] theorem failCycle_setCrc (r : ErrorKind) (now : Timestamp) :
    failCycle r now (s.setCrc v) = mapNext (State.setCrc · v) (failCycle r now s) := by
  simp [failCycle]

@[simp] theorem judgeByte_setCrc (c : Config) (now : Timestamp) :
    judgeByte c now (s.setCrc v) = mapNext (State.setCrc · v) (judgeByte c now s) := by
  simp [judgeByte]

theorem execRxByte_setCrc (b : Byte) (now : Timestamp) :
    execRxByte b now (s.setCrc v) = mapNext (State.setCrc · v) (execRxByte b now s) := by
  simp [execRxByte]

@[simp] theorem attemptRequest_setCrc (c : Config) (now : Timestamp) :
    attemptRequest c now (s.setCrc v) = mapNext (State.setCrc · v) (attemptRequest c now s) := by
  rw [attemptRequest, attemptRequest, withSelectedSlave_setCrc, mapNext_withSelectedSlave]
  refine congrArg (withSelectedSlave c s) (funext fun a => ?_)
  cases encodeRequest a c.startAddr c.regCount <;> simp

theorem execTick_setCrc (now : Timestamp) :
    execTick now (s.setCrc v) = mapNext (State.setCrc · v) (execTick now s) := by
  simp [execTick]

theorem execTerr_setCrc : execTerr (s.setCrc v) = mapNext (State.setCrc · v) (execTerr s) := by
  simp [execTerr]

theorem execEncode_setCrc (a start n : Nat) :
    execEncode a start n (s.setCrc v) = mapNext (State.setCrc · v) (execEncode a start n s) := by
  unfold execEncode
  cases encodeRequest a start n <;> rfl

theorem execDecode_setCrc (frame : ResponseFrame) :
    execDecode frame (s.setCrc v) = mapNext (State.setCrc · v) (execDecode frame s) := by
  rw [execDecode, execDecode, mapNext_ite, mapNext_withCurSlave]
  rfl

end

/-- R107: an operation outside the Checksum Engine answers the same whatever `crc` holds, and leaves it there. -/
theorem exec_setCrc {i : Instr} (s : State) (v : Word16) (hrst : i ≠ .rst) (hinit : i ≠ .crcInit)
    (hbyte : ∀ b, i ≠ .crcByte b) : exec i (s.setCrc v) = mapNext (State.setCrc · v) (exec i s) := by
  cases i with
  | rst => exact absurd rfl hrst
  | crcInit => exact absurd rfl hinit
  | crcByte b => exact absurd rfl (hbyte b)
  | nop => rfl
  | tick now => exact execTick_setCrc v s now
  | rxByte b now => exact execRxByte_setCrc v s b now
  | terr => exact execTerr_setCrc v s
  | encode a n m => exact execEncode_setCrc v s a n m
  | decode frame => exact execDecode_setCrc v s frame

/-- Settles O16: a case per operation, whose reads and updates commute with setting `crc`. -/
theorem pollingIgnoresCrcRegister : Obligations.PollingIgnoresCrcRegister :=
  fun _ s v hrst hinit hbyte => exec_setCrc s v hrst hinit hbyte

/-! The register along a run (R106). -/

/-- An operation that leaves any value of `crc` in place leaves the one it finds. -/
theorem exec_crc_of_not_engine {i : Instr} {s t : State} (hrst : i ≠ .rst) (hinit : i ≠ .crcInit)
    (hbyte : ∀ b, i ≠ .crcByte b) (h : exec i s = .next t) : t.crc = s.crc := by
  have hset : exec i s = mapNext (State.setCrc · s.crc) (exec i s) := exec_setCrc s s.crc hrst hinit hbyte
  rw [h, mapNext_next, next_eq] at hset
  rw [← hset, State.setCrc_crc]

theorem exec_crc {i : Instr} {s t : State} (hinit : i ≠ .crcInit) (hrst : i ≠ .rst) (h : exec i s = .next t) :
    t.crc = crc16Update s.crc (crcBytes [i]) := by
  cases i with
  | crcInit => exact absurd rfl hinit
  | rst => exact absurd rfl hrst
  | crcByte b => obtain rfl := next_eq.1 h; rfl
  | nop | tick | rxByte | terr | encode | decode => exact exec_crc_of_not_engine hrst hinit (by simp) h

theorem execAll_cons_next {i : Instr} {l : List Instr} {s t : State} :
    execAll (i :: l) s = .next t ↔ ∃ u, exec i s = .next u ∧ execAll l u = .next t := by
  rw [execAll]
  cases exec i s <;> simp

theorem crcBytes_cons (i : Instr) (l : List Instr) : crcBytes (i :: l) = crcBytes [i] ++ crcBytes l := by
  cases i <;> rfl

theorem execAll_crc {l : List Instr} {s t : State} (hl : ∀ i ∈ l, i ≠ .crcInit ∧ i ≠ .rst)
    (h : execAll l s = .next t) : t.crc = crc16Update s.crc (crcBytes l) := by
  induction l generalizing s with
  | nil => obtain rfl := next_eq.1 h; rfl
  | cons i l ih =>
    obtain ⟨⟨hinit, hrst⟩, hrest⟩ := List.forall_mem_cons.1 hl
    obtain ⟨u, hu, ht⟩ := execAll_cons_next.1 h
    rw [ih hrest ht, exec_crc hinit hrst hu, crcBytes_cons i l, crc16Update_append]

/-- Settles O15, by induction on the list: an operation folds in its own bytes, if any, and leaves `crc` otherwise. -/
theorem crcOutIsChecksumOfFoldedBytes : Obligations.CrcOutIsChecksumOfFoldedBytes :=
  ⟨fun _ => rfl, fun _ s _ hl h => execAll_crc (s := s.setCrc crcInitValue) hl h⟩

end Sys2Proof.Machine

/-! Proofs, family 41_frame_encoder.md: the bytes of a request frame (R130 to R132) and the function calls (R130). -/

namespace Sys2Proof.Machine

/-! The two bytes of a word as numbers (R51, R52). -/

theorem hiByte_toNat (v : Word16) : (hiByte v).toNat = v.toNat / 256 := by
  simp only [hiByte, BitVec.extractLsb'_toNat, Nat.shiftRight_eq_div_pow]
  omega

theorem loByte_toNat (v : Word16) : (loByte v).toNat = v.toNat % 256 := by
  simp [loByte]

theorem hiByte_loByte_toNat (v : Word16) : (hiByte v).toNat * 256 + (loByte v).toNat = v.toNat := by
  rw [hiByte_toNat, loByte_toNat, Nat.div_add_mod']

theorem hiByte_ofNat (n : Nat) : hiByte (BitVec.ofNat 16 n) = BitVec.ofNat 8 (n / 256) := by
  apply BitVec.eq_of_toNat_eq
  simp only [hiByte_toNat, BitVec.toNat_ofNat]
  omega

theorem loByte_ofNat (n : Nat) : loByte (BitVec.ofNat 16 n) = BitVec.ofNat 8 (n % 256) := by
  apply BitVec.eq_of_toNat_eq
  simp only [loByte_toNat, BitVec.toNat_ofNat]
  omega

/-! The request frame (R130 to R132). -/

/-- The body with its 16-bit fields as high and low bytes (R73). -/
theorem requestBody_eq (a n m : Nat) :
    requestBody a n m = [BitVec.ofNat 8 a, 0x03#8, BitVec.ofNat 8 (n / 256), BitVec.ofNat 8 (n % 256),
      BitVec.ofNat 8 (m / 256), BitVec.ofNat 8 (m % 256)] := by
  simp only [requestBody, hiByte_ofNat, loByte_ofNat, funcCode]

set_option maxRecDepth 4000 in
/-- The worked value of R130. -/
theorem encodeRequest_example :
    encodeRequest 1 0 2 = some [0x01, 0x03, 0x00, 0x00, 0x00, 0x02, 0xC4, 0x0B] := by
  decide

/-- Settles O23: legal operands give the body followed by its checksum, the body's fields read as bytes; other operands
give none. -/
theorem encodeReturnsFrameOrInvalidParameter : Obligations.EncodeReturnsFrameOrInvalidParameter := by
  refine ⟨fun a n m => ⟨fun ⟨ha1, ha247, hn, hm1, hm125⟩ => ?_, fun hbad => ?_⟩, encodeRequest_example⟩
  · refine encodeRequest_some.2 ⟨legalRequest_iff.2 ⟨⟨ha1, ha247⟩, hn, hm1, hm125⟩, ?_⟩
    rw [requestFrame, withChecksum, requestBody_eq]
  · rw [encodeRequest_none, ← Bool.not_eq_true, legalRequest_iff, and_assoc]
    exact hbad

/-- Different legal operands give different first six bytes (R132): these determine the frame, and the decoder reads the
operands back from it (R73). -/
theorem requestBody_injective {a n m a' n' m' : Nat} (h : legalRequest a n m = true) (h' : legalRequest a' n' m' = true)
    (hbody : requestBody a n m = requestBody a' n' m') : (a, n, m) = (a', n', m') := by
  obtain ⟨ha, hn, hm⟩ := legalRequest_iff.1 h
  obtain ⟨ha', hn', hm'⟩ := legalRequest_iff.1 h'
  have hcall : decodeCall (requestFrame a n m) = decodeCall (requestFrame a' n' m') := by
    rw [requestFrame, hbody, requestFrame]
  rw [decodeCall_requestFrame (by omega) (by omega) (by omega),
    decodeCall_requestFrame (by omega) (by omega) (by omega)] at hcall
  simpa using hcall

/-- The bytes of a legal request at their places as numbers (R132). -/
theorem requestFrame_bytes {a n m : Nat} (h : legalRequest a n m = true) :
    let f := requestFrame a n m
    (f.getD 0 0).toNat = a ∧ f.getD 1 0 = 0x03#8 ∧ (f.getD 2 0).toNat * 256 + (f.getD 3 0).toNat = n ∧
      f.getD 4 0 = 0#8 ∧ (f.getD 5 0).toNat = m := by
  obtain ⟨⟨-, ha⟩, hn, -, hm⟩ := legalRequest_iff.1 h
  have hnat : (BitVec.ofNat 16 n).toNat = n := Nat.mod_eq_of_lt (by omega)
  have hcount : m / 256 = 0 := by omega
  refine ⟨Nat.mod_eq_of_lt (by omega), rfl, (hiByte_loByte_toNat _).trans hnat, ?_, ?_⟩
  · exact (hiByte_ofNat m).trans (by rw [hcount])
  · exact (loByte_toNat _).trans (by rw [BitVec.toNat_ofNat]; omega)

/-- Settles O25: the places by the body's fields, the checksum and the residual by `withChecksum`, and injectivity
because the first six bytes give the operands back. -/
theorem encodedFrameProperties : Obligations.EncodedFrameProperties := by
  refine ⟨fun a n m f hf => ?_, fun a n m a' n' m' f f' hf hf' hne htake => hne ?_⟩
  · obtain ⟨hlegal, rfl⟩ := encodeRequest_some.1 hf
    obtain ⟨haddr, hfunc, hstart, hcountHi, hcountLo⟩ := requestFrame_bytes hlegal
    exact ⟨requestFrame_length a n m, haddr, hfunc, hstart, hcountHi, hcountLo, hiByte_loByte_toNat _,
      crc16_withChecksum _⟩
  · obtain ⟨hlegal, rfl⟩ := encodeRequest_some.1 hf
    obtain ⟨hlegal', rfl⟩ := encodeRequest_some.1 hf'
    exact requestBody_injective hlegal hlegal' htake

/-! The function calls (R130, assumption 7). -/

theorem execEncode_of_some {a n m : Nat} {f : List Byte} (h : encodeRequest a n m = some f) (s : State) :
    execEncode a n m s = .next (s.setCallResult (.frame f)) := by
  simp only [execEncode, h]

theorem execEncode_of_none {a n m : Nat} (h : encodeRequest a n m = none) (s : State) :
    execEncode a n m s = .next (s.setCallResult .invalidParameter) := by
  simp only [execEncode, h]

/-- Settles O24: the call by the two answers of `encode`. -/
theorem encodeCallCompletes : Obligations.EncodeCallCompletes :=
  fun _ _ _ s => ⟨fun _ hf => execEncode_of_some hf s, fun hnone => execEncode_of_none hnone s⟩

/-- Settles O28: both calls answer the state with a result written into it. -/
theorem functionCallsHaveNoSideEffects : Obligations.FunctionCallsHaveNoSideEffects := by
  rintro i s t (⟨a, n, m, rfl⟩ | ⟨frame, rfl⟩) h
  · obtain ⟨r, rfl⟩ := execEncode_next h
    rfl
  · obtain ⟨r, rfl⟩ := execDecode_next h
    rfl

end Sys2Proof.Machine

/-! Proofs, family 42_response_assembler.md: the checks of a received byte (R152 to R162), what it leaves unchanged, the
transitions of `asm_state` (R151), chunks (R164), the room in the buffer (R165), and whole responses against `DECODE`
(R166, R167, R169). -/

namespace Sys2Proof.Machine

/-! The checks of an appended byte, one equation per position in the frame (R155 to R162). -/

section
variable {c : Config} {now : Timestamp} {s : State} {cur : Byte}

/-- With a polled slave at hand a check answers a next state either way: go on to `u`, or fail the cycle (R161). -/
theorem check_of_polled (p : Prop) [Decidable p] (u : State) (r : ErrorKind) (hcur : s.curSlave = some cur) :
    (if p then .next u else failCycle r now s : Result) = .next (if p then u else raiseError r now cur.toNat s) := by
  rw [failCycle_next.2 ⟨cur, hcur, rfl⟩, apply_ite Host.Outcome.next]

theorem judgeByte_first {b : Byte} (hlen : s.bufLen = 1) (hb : Memory.read s.buf 0 = some b)
    (hcur : s.curSlave = some cur) :
    judgeByte c now s = .next (if b = cur then s else raiseError .frameMismatch now cur.toNat s) := by
  simp [judgeByte, withBufByte, withCurSlave, hlen, hb, hcur, check_of_polled _ _ _ hcur]

theorem judgeByte_second {b : Byte} (hlen : s.bufLen = 2) (hb : Memory.read s.buf 1 = some b)
    (hcur : s.curSlave = some cur) :
    judgeByte c now s = .next (if b = funcCode then s else raiseError .frameMismatch now cur.toNat s) := by
  simp [judgeByte, withBufByte, hlen, hb, check_of_polled _ _ _ hcur]

theorem judgeByte_third {b : Byte} (hlen : s.bufLen = 3) (hb : Memory.read s.buf 2 = some b)
    (hcur : s.curSlave = some cur) :
    judgeByte c now s = .next
      (if b.toNat = requestedByteCount c.regCount then s else raiseError .frameMismatch now cur.toNat s) := by
  simp [judgeByte, withBufByte, hlen, hb, check_of_polled _ _ _ hcur]

/-- After the header a byte that does not fill the frame is not checked (R158). -/
theorem judgeByte_data {n : Byte} (hlen : 4 ≤ s.bufLen) (hn : Memory.read s.buf 2 = some n)
    (hmore : s.bufLen ≠ expectedTotal n) : judgeByte c now s = .next s := by
  simp [judgeByte, withBufByte, hn, hmore, show s.bufLen ≠ 1 by omega, show s.bufLen ≠ 2 by omega,
    show s.bufLen ≠ 3 by omega]

/-- The byte that fills the frame decides by the checksum (R159). -/
theorem judgeByte_last {n : Byte} {frame : List Byte} (hn : Memory.read s.buf 2 = some n)
    (hfull : s.bufLen = expectedTotal n) (hframe : s.received = some frame) (hcur : s.curSlave = some cur) :
    judgeByte c now s = .next
      (if checksumOk frame then completeCycle frame now s else raiseError .checksumMismatch now cur.toNat s) := by
  have hlen := expectedTotal_ge n
  rw [State.received] at hframe
  simp [judgeByte, withBufByte, withBufBytes, hn, hframe, ← hfull, check_of_polled _ _ _ hcur,
    show s.bufLen ≠ 1 by omega, show s.bufLen ≠ 2 by omega, show s.bufLen ≠ 3 by omega]

end

/-! The bytes received so far. -/

/-- An append adds the byte to those received (R154). -/
theorem received_appended {s : State} {bytes : List Byte} (b : Byte) (h : s.received = some bytes) :
    (s.appended b).received = some (bytes ++ [b]) :=
  Memory.readRange_write s.buf s.bufLen bytes b h

theorem received_length {s : State} {bytes : List Byte} (h : s.received = some bytes) : bytes.length = s.bufLen :=
  Memory.readRange_length s.buf 0 s.bufLen bytes h

theorem received_getElem? {s : State} {bytes : List Byte} (h : s.received = some bytes) {i : Nat}
    (hi : i < bytes.length) : bytes[i]? = Memory.read s.buf i := by
  rw [Memory.readRange_getElem s.buf 0 s.bufLen bytes h i (received_length h ▸ hi), Nat.zero_add]

/-- The byte appended reads back at `buf_len` (R154). -/
theorem read_appended_same (s : State) (b : Byte) : Memory.read (s.appended b).buf s.bufLen = some b :=
  Memory.read_write_same s.buf s.bufLen b

/-- The state with a byte appended at a length written out. -/
theorem appended_eq {s : State} {n : Nat} (b : Byte) (h : s.bufLen = n) :
    s.appended b = { s with buf := Memory.write s.buf n b, bufLen := n + 1 } := by
  subst h; rfl

/-! One byte for an outstanding request (R152 to R162). -/

section
variable {s : State} {cur : Byte} (hw : Waiting s cur) (hroom : s.bufLen < bufDepth) (b : Byte) (now : Timestamp)
include hw hroom

/-- A byte for an outstanding request is appended and judged. -/
theorem execRxByte_of_waiting : execRxByte b now s = judgeByte s.config now (s.appended b) := by
  obtain ⟨hrun, hasm, hstable, -⟩ := hw
  simp [execRxByte, State.pollingHalted, State.outstanding, withStableConfig, withAppended, State.appendIndex, *]

/-- A byte judged by one header check `p` is kept, or the cycle ends as FrameMismatch for the polled slave. -/
theorem execRxByte_of_headerCheck {n : Nat} (hlen : s.bufLen = n) {p : Prop} [Decidable p]
    (hjudge : judgeByte s.config now (s.appended b) =
      .next (if p then s.appended b else raiseError .frameMismatch now cur.toNat (s.appended b))) :
    (p → execRxByte b now s = .next { s with buf := Memory.write s.buf n b, bufLen := n + 1 }) ∧
    (¬ p → execRxByte b now s = .next { s with
      asmState := .failed, buf := [], bufLen := 0,
      trace := s.trace ++ [.report now cur.toNat (.failed .frameMismatch)] }) := by
  rw [execRxByte_of_waiting hw hroom, hjudge]
  exact ⟨fun hp => by rw [if_pos hp, appended_eq b hlen], fun hp => by rw [if_neg hp]; rfl⟩

end

/-- Settles O29: these are the states in which `RX_BYTE` is ignored. -/
theorem bytesWithoutRequestAreDiscarded : Obligations.BytesWithoutRequestAreDiscarded :=
  fun _ _ _ h => execRxByte_next.2 (.inl ⟨h, rfl⟩)

/-- Settles O30: the first byte is judged by the check of position 1. -/
theorem firstByteMustBePolledAddress : Obligations.FirstByteMustBePolledAddress := by
  intro s cur b now hw hlen
  have hread : Memory.read (s.appended b).buf 0 = some b := hlen ▸ read_appended_same s b
  exact execRxByte_of_headerCheck hw (by rw [hlen]; decide) b now hlen
    (judgeByte_first (congrArg (· + 1) hlen) hread hw.polledSlave)

/-- Settles O31: the second byte is judged by the check of position 2. -/
theorem secondByteMustBeFunctionCode : Obligations.SecondByteMustBeFunctionCode := by
  intro s cur b now hw hlen
  have hread : Memory.read (s.appended b).buf 1 = some b := hlen ▸ read_appended_same s b
  exact execRxByte_of_headerCheck hw (by rw [hlen]; decide) b now hlen
    (judgeByte_second (congrArg (· + 1) hlen) hread hw.polledSlave)

/-- Settles O32: the third byte is judged by the check of position 3. -/
theorem thirdByteMustBeByteCount : Obligations.ThirdByteMustBeByteCount := by
  intro s cur b now hw hlen
  have hread : Memory.read (s.appended b).buf 2 = some b := hlen ▸ read_appended_same s b
  exact execRxByte_of_headerCheck hw (by rw [hlen]; decide) b now hlen
    (judgeByte_third (congrArg (· + 1) hlen) hread hw.polledSlave)

/-- Settles O33: past the header and short of the full frame nothing is checked. -/
theorem dataBytesAreAppendedUnchecked : Obligations.DataBytesAreAppendedUnchecked := by
  intro s cur b c now hw hlen hroom hc hmore
  have hne : (s.appended b).bufLen ≠ expectedTotal c := Nat.ne_of_lt hmore
  exact (execRxByte_of_waiting hw hroom b now).trans
    (judgeByte_data (Nat.succ_le_succ hlen) ((read_appended b hlen).trans hc) hne)

/-! The last byte (R159 to R162). -/

/-- The check of R159 by the trailing two bytes. -/
theorem checksumOk_iff_getElem? {frame : List Byte} {m : Nat} (h : frame.length = m + 2) :
    checksumOk frame = true ↔
      frame[m]? = some (loByte (crc16 (frame.take m))) ∧ frame[m + 1]? = some (hiByte (crc16 (frame.take m))) := by
  have htail : frame.drop m = [frame[m], frame[m + 1]] := by
    rw [List.drop_eq_getElem_cons, List.drop_eq_getElem_cons, List.drop_of_length_le h.le]
  simp only [checksumOk, h, Nat.add_sub_cancel, htail, Bool.and_eq_true, decide_eq_true_eq]
  simp [h]

/-- Register `i` stands in bytes `2i` and `2i + 1`, high byte first (R51, R160). -/
theorem registersOf_eq_map_range : ∀ l : List Byte,
    registersOf l = (List.range (l.length / 2)).map fun i => wordOf (l.getD (2 * i) 0) (l.getD (2 * i + 1) 0)
  | [] => rfl
  | [_] => by simp [registersOf]
  | h :: l :: t => by
    have hlen : (h :: l :: t).length / 2 = t.length / 2 + 1 := Nat.add_div_right _ Nat.two_pos
    rw [registersOf, registersOf_eq_map_range t, hlen, List.range_succ_eq_map, List.map_cons, List.map_map]
    rfl

/-- The registers of a frame of `n` data bytes by their places in the frame (R160). -/
theorem responseOf_registers {frame : List Byte} {n : Nat} (h : frame.length = 3 + n + 2) :
    (responseOf frame).registers =
      (List.range (n / 2)).map fun i => wordOf (frame.getD (3 + 2 * i) 0) (frame.getD (4 + 2 * i) 0) := by
  have hn : frame.length - 5 = n := by omega
  have hdata : ((frame.drop 3).take n).length = n := by simp; omega
  simp only [responseOf, hn, registersOf_eq_map_range, hdata]
  refine List.map_congr_left fun i hi => ?_
  have hi : i < n / 2 := List.mem_range.1 hi
  simp [List.getElem?_drop, show 2 * i < n by omega, show 2 * i + 1 < n by omega,
    show 3 + (2 * i + 1) = 4 + 2 * i by omega]

/-- Settles O34: the byte fills the frame, whose two trailing bytes decide. -/
theorem lastByteDecidesByChecksum : Obligations.LastByteDecidesByChecksum := by
  intro s cur b c now body hw hroom hc hfull hbody
  have hbyteCount : Memory.read (s.appended b).buf 2 = some c := (read_appended b (by omega)).trans hc
  have hlen : (body ++ [b]).length = 3 + c.toNat + 2 := by
    rw [List.length_append, received_length hbody]; exact hfull
  have hn : s.bufLen + 1 - 2 = 3 + c.toNat ∧ s.bufLen + 1 - 1 = 3 + c.toNat + 1 := by omega
  have hexec : execRxByte b now s = _ := (execRxByte_of_waiting hw hroom b now).trans
    (judgeByte_last hbyteCount hfull (received_appended b hbody) hw.polledSlave)
  simp only [hn, ← checksumOk_iff_getElem? hlen]
  constructor <;> intro hok <;> refine hexec.trans ?_
  · rw [if_pos hok, completeCycle, responseOf_registers hlen]; rfl
  · rw [if_neg hok]; rfl

/-! What an `RX_BYTE` leaves unchanged (R152, R154, R161). -/

/-- No `RX_BYTE` writes a register but `asm_state` and `buf_len`. -/
theorem execRxByte_registers {b : Byte} {now : Timestamp} {s t : State} (h : execRxByte b now s = .next t) :
    t.crc = s.crc ∧ t.curSlave = s.curSlave ∧ t.cursorIdx = s.cursorIdx ∧ t.lastSendTs = s.lastSendTs ∧
    t.halted = s.halted ∧ t.config = s.config ∧ t.configIn = s.configIn ∧ t.port = s.port ∧
    t.callResult = s.callResult := by
  obtain ⟨-, rfl⟩ | ⟨-, -, -, -, h⟩ := execRxByte_next.1 h
  · exact ⟨rfl, rfl, rfl, rfl, rfl, rfl, rfl, rfl, rfl⟩
  · obtain rfl | ⟨cur, -, rfl | rfl⟩ | ⟨frame, -, -, rfl⟩ := judgeByte_next h <;>
      exact ⟨rfl, rfl, rfl, rfl, rfl, rfl, rfl, rfl, rfl⟩

/-- The byte is stored exactly when a request is outstanding and nothing is halted, and then at `buf_len`. -/
theorem rxStoreIndex_eq_some {s : State} {a : Nat} :
    s.rxStoreIndex = some a ↔ s.halted = false ∧ s.asmState = .accumulating ∧ s.bufLen = a := by
  simp [State.rxStoreIndex, State.pollingHalted, State.outstanding, State.appendIndex]

theorem rxStoreIndex_eq_none {s : State} :
    s.rxStoreIndex = none ↔ s.halted = true ∨ s.asmState ≠ .accumulating := by
  by_cases hh : s.halted = true <;> simp [State.rxStoreIndex, State.pollingHalted, State.outstanding, hh]

/-- The buffer holds nothing after a cycle that failed. -/
def FailedEmpty (t : State) : Prop := t.asmState = .failed ∧ t.bufLen = 0 ∧ ∀ x, Memory.read t.buf x = none

/-- The buffer holds one byte more, at index `a`. -/
def StoredAt (a : Nat) (b : Byte) (s t : State) : Prop :=
  t.asmState ≠ .failed ∧ t.bufLen = s.bufLen + 1 ∧ Memory.read t.buf a = some b ∧
    ∀ x, x ≠ a → Memory.read t.buf x = Memory.read s.buf x

/-- A byte judged fails the cycle or stays where it was appended. -/
theorem judgeByte_buffer {c : Config} {b : Byte} {now : Timestamp} {s t : State} (hasm : s.asmState ≠ .failed)
    (h : judgeByte c now (s.appended b) = .next t) : FailedEmpty t ∨ StoredAt s.bufLen b s t := by
  have hother := fun x (hx : x ≠ s.bufLen) => Memory.read_write_other s.buf s.bufLen x b hx
  obtain rfl | ⟨cur, -, rfl | rfl⟩ | ⟨frame, -, -, rfl⟩ := judgeByte_next h
  · exact .inr ⟨hasm, rfl, read_appended_same s b, hother⟩
  · exact .inl ⟨rfl, rfl, Memory.read_nil⟩
  · exact .inl ⟨rfl, rfl, Memory.read_nil⟩
  · exact .inr ⟨by simp, rfl, read_appended_same s b, hother⟩

/-- Settles O35: an ignored byte changes nothing; another one is judged, with its registers and buffer said above. -/
theorem rxByteFrame : Obligations.RxByteFrame := by
  intro s t b now h
  obtain ⟨hcrc, hcur, hidx, hts, hhalt, hconfig, hin, hport, hcall⟩ := execRxByte_registers h
  refine ⟨hcrc, hcur, hidx, hts, hhalt, hconfig, hin, hport, hcall, fun hnone => ?_, fun a hsome => ?_⟩
  · have hsame : execRxByte b now s = .next s := execRxByte_next.2 (.inl ⟨rxStoreIndex_eq_none.1 hnone, rfl⟩)
    exact next_eq.1 (hsame.symm.trans h)
  · obtain ⟨hrun, hasm, rfl⟩ := rxStoreIndex_eq_some.1 hsome
    obtain ⟨hidle, -⟩ | ⟨-, -, -, -, hjudge⟩ := execRxByte_next.1 h
    · simp [hrun, hasm] at hidle
    · exact judgeByte_buffer (by simp [hasm]) hjudge

/-! The transitions of `asm_state` (R151). -/

theorem attemptRequest_asmState {c : Config} {now : Timestamp} {s t : State}
    (h : attemptRequest c now s = .next t) : t.asmState = .idle ∨ t.asmState = .accumulating := by
  obtain ⟨-, a, -, ⟨-, rfl⟩ | ⟨-, rfl⟩⟩ := attemptRequest_next.1 h
  · exact .inl rfl
  · exact .inr rfl

/-- An unhalted `TICK` waits in `Accumulating` or makes an attempt. -/
theorem execTick_asmState {now : Timestamp} {s t : State} (hrun : s.halted = false) (h : execTick now s = .next t) :
    t.asmState = .idle ∨ t.asmState = .accumulating := by
  obtain ⟨hh, -⟩ | ⟨-, -, ⟨-, h⟩ | ⟨hasm, ts, -, ⟨-, rfl⟩ | ⟨-, cur, -, h⟩⟩⟩ := execTick_next.1 h
  · simp [hrun] at hh
  · exact attemptRequest_asmState h
  · exact .inr hasm
  · exact attemptRequest_asmState h

theorem execRxByte_asmState {b : Byte} {now : Timestamp} {s t : State} (h : execRxByte b now s = .next t) :
    t.asmState = s.asmState ∨ s.asmState = .accumulating ∧ (t.asmState = .complete ∨ t.asmState = .failed) := by
  obtain ⟨-, rfl⟩ | ⟨-, hasm, -, -, h⟩ := execRxByte_next.1 h
  · exact .inl rfl
  · obtain rfl | ⟨cur, -, rfl | rfl⟩ | ⟨frame, -, -, rfl⟩ := judgeByte_next h
    · exact .inl rfl
    · exact .inr ⟨hasm, .inr rfl⟩
    · exact .inr ⟨hasm, .inr rfl⟩
    · exact .inr ⟨hasm, .inl rfl⟩

theorem exec_asmMayChange {i : Instr} {s t : State} (hrun : s.halted = false ∨ i = .rst)
    (h : exec i s = .next t) : asmMayChange i s.asmState t.asmState = true := by
  cases i with
  | nop => obtain rfl := next_eq.1 h; simp [asmMayChange]
  | rst => obtain rfl := next_eq.1 h; simp [asmMayChange]
  | tick now => simpa [asmMayChange] using execTick_asmState (by simpa using hrun) h
  | rxByte b now => simpa [asmMayChange] using execRxByte_asmState h
  | terr => obtain ⟨-, rfl⟩ | ⟨-, rfl⟩ := execTerr_next.1 h <;> exact decide_eq_true rfl
  | crcInit => obtain rfl := next_eq.1 h; simp [asmMayChange]
  | crcByte b => obtain rfl := next_eq.1 h; simp [asmMayChange]
  | encode a n m => obtain ⟨r, rfl⟩ := execEncode_next h; simp [asmMayChange]
  | decode frame => obtain ⟨r, rfl⟩ := execDecode_next h; simp [asmMayChange]

theorem exec_asmState_of_halted {i : Instr} {s t : State} (hh : s.halted = true) (hrst : i ≠ .rst)
    (h : exec i s = .next t) : t.asmState = s.asmState := by
  cases i with
  | rst => exact absurd rfl hrst
  | tick now =>
    obtain ⟨htick, -, -⟩ := exec_of_halted now 0 hh
    rw [next_eq.1 (htick.symm.trans h)]
  | rxByte b now =>
    obtain ⟨-, hrx, -⟩ := exec_of_halted now b hh
    rw [next_eq.1 (hrx.symm.trans h)]
  | terr =>
    obtain ⟨-, -, hterr⟩ := exec_of_halted 0 0 hh
    rw [next_eq.1 (hterr.symm.trans h)]
  | nop => obtain rfl := next_eq.1 h; rfl
  | crcInit => obtain rfl := next_eq.1 h; rfl
  | crcByte b => obtain rfl := next_eq.1 h; rfl
  | encode a n m => obtain ⟨r, rfl⟩ := execEncode_next h; rfl
  | decode frame => obtain ⟨r, rfl⟩ := execDecode_next h; rfl

/-- Settles O49: a case per operation; what can change `asm_state` is an attempt, a judged byte and `RST`. -/
theorem assemblerTransitionsAreTheTabulated : Obligations.AssemblerTransitionsAreTheTabulated :=
  fun _ _ _ h => ⟨fun hrun => exec_asmMayChange hrun h, fun hh hrst => exec_asmState_of_halted hh hrst h⟩

/-! A `DECODE` call without an outstanding request (R153, assumption 7). -/

/-- Settles O27: this is the first branch of the call. -/
theorem decodeWithoutRequestDiscards : Obligations.DecodeWithoutRequestDiscards :=
  fun _ _ hasm => if_pos (decide_eq_false hasm)

/-! The timestamps of received bytes reach the reports alone (R164). -/

section
variable (now : Timestamp) (s : State)

theorem raiseError_untimed (k : ErrorKind) (addr : Nat) :
    raiseError k 0#32 addr s.untimed = (raiseError k now addr s).untimed := by
  cases k <;> simp [raiseError, State.untimed, State.setAsm, State.clearBuffer, State.emit, State.setHalted,
    Output.untimed]

theorem completeCycle_untimed (frame : List Byte) :
    completeCycle frame 0#32 s.untimed = (completeCycle frame now s).untimed := by
  simp [completeCycle, State.untimed, State.setAsm, State.emit, Output.untimed]

theorem judgeByte_untimed (c : Config) :
    judgeByte c 0#32 s.untimed = mapNext State.untimed (judgeByte c now s) := by
  simp only [judgeByte, failCycle, mapNext_ite, mapNext_withBufByte, mapNext_withBufBytes, mapNext_withCurSlave,
    mapNext_next, ← raiseError_untimed, ← completeCycle_untimed]
  rfl

theorem execRxByte_untimed (b : Byte) :
    execRxByte b 0#32 s.untimed = mapNext State.untimed (execRxByte b now s) := by
  simp only [execRxByte, mapNext_ite, mapNext_withStableConfig, mapNext_withAppended, mapNext_next,
    ← judgeByte_untimed]
  rfl

end

theorem untimedResult_eq_mapNext (r : Result) : untimedResult r = mapNext State.untimed r := by
  cases r <;> rfl

/-- Without its timestamps the answer to received bytes is the answer to the bytes alone. -/
theorem execAll_rxAll_untimed (l : List (Byte × Timestamp)) (s : State) :
    untimedResult (execAll (rxAll l) s) = execAll ((l.map Prod.fst).map (.rxByte · 0#32)) s.untimed := by
  rw [untimedResult_eq_mapNext]
  induction l generalizing s with
  | nil => rfl
  | cons p l ih =>
    have hstep : exec (.rxByte p.1 0#32) s.untimed = mapNext State.untimed (exec (.rxByte p.1 p.2) s) :=
      execRxByte_untimed p.2 s p.1
    simp only [rxAll, List.map_cons, execAll, hstep]
    cases exec (.rxByte p.1 p.2) s with
    | next u => exact ih u
    | fault f => rfl
    | refused r => rfl

/-- Settles O36: a chunk is a map over its bytes; and equal bytes give one answer once the timestamps are dropped. -/
theorem chunksDoNotMatter : Obligations.ChunksDoNotMatter :=
  ⟨fun _ _ _ => List.map_append, fun s l l' h => by rw [execAll_rxAll_untimed, execAll_rxAll_untimed, h]⟩

/-! Received bytes one after the other. -/

theorem execAll_append {l m : List Instr} {s u : State} (h : execAll l s = .next u) :
    execAll (l ++ m) s = execAll m u := by
  induction l generalizing s with
  | nil => obtain rfl := next_eq.1 h; rfl
  | cons i l ih =>
    obtain ⟨v, hv, h⟩ := execAll_cons_next.1 h
    simp only [List.cons_append, execAll, hv, ih h]

/-- Where one byte is discarded any number is (R153, R168). -/
theorem execAll_rxAll_discarded {s : State} (h : s.halted = true ∨ s.asmState ≠ .accumulating)
    (l : List (Byte × Timestamp)) : execAll (rxAll l) s = .next s := by
  induction l with
  | nil => rfl
  | cons p l ih => exact execAll_cons_next.2 ⟨s, bytesWithoutRequestAreDiscarded s p.1 p.2 h, ih⟩

/-- An append leaves the request outstanding. -/
theorem Waiting.appended {s : State} {cur : Byte} (h : Waiting s cur) (b : Byte) : Waiting (s.appended b) cur :=
  ⟨h.running, h.asm, h.stable, h.polledSlave⟩

/-- Settles O37: the first byte is kept, the second fails the cycle, and the others find no request outstanding. -/
theorem otherFunctionCodesFailAtOnce : Obligations.OtherFunctionCodesFailAtOnce := by
  intro s cur f n0 n1 rest hw hlen hf
  have hfirst := (firstByteMustBePolledAddress s cur cur n0 hw hlen).1 rfl
  rw [← appended_eq cur hlen] at hfirst
  have hsecond := (secondByteMustBeFunctionCode (s.appended cur) cur f n1 (hw.appended cur)
    (congrArg (· + 1) hlen)).2 hf
  have hrun := execAll_cons_next.2 ⟨_, hfirst, execAll_cons_next.2 ⟨_, hsecond,
    execAll_rxAll_discarded (.inr (by simp)) rest⟩⟩
  exact ⟨_, hrun, rfl, rfl, rfl⟩

/-! The verdict of `DECODE` as bytes come in (R155 to R159). -/

/-- A sequence is incomplete while each header byte it has passes its check and the frame is not full. -/
theorem decodeResponse_incomplete_iff {cur : Byte} {n : Nat} {bytes : List Byte} :
    decodeResponse cur n bytes = .incomplete ↔
      (∀ a, bytes[0]? = some a → a = cur) ∧ (∀ f, bytes[1]? = some f → f = funcCode) ∧
      ∀ c, bytes[2]? = some c → c.toNat = requestedByteCount n ∧ bytes.length < expectedTotal c := by
  match bytes with
  | [] => simp [decodeResponse]
  | [a] => simp [decodeResponse]
  | [a, f] => simp [decodeResponse, ite_eq_iff]
  | a :: f :: c :: t => simp [decodeResponse, ite_eq_iff]

/-- Past a good header the length and the checksum decide. -/
theorem decodeResponse_of_header {cur c : Byte} {n : Nat} (hc : c.toNat = requestedByteCount n) (t : List Byte) :
    decodeResponse cur n (cur :: funcCode :: c :: t) =
      if t.length + 3 < expectedTotal c then .incomplete
      else if checksumOk ((cur :: funcCode :: c :: t).take (expectedTotal c))
        then .accepted (responseOf ((cur :: funcCode :: c :: t).take (expectedTotal c)))
        else .checksumMismatch := by
  simp [decodeResponse, hc]

/-- A verdict other than incomplete stands, whatever follows (R166, 90_conflicts.md C6). -/
theorem decodeResponse_append {cur : Byte} {n : Nat} {bytes : List Byte} (more : List Byte)
    (h : decodeResponse cur n bytes ≠ .incomplete) :
    decodeResponse cur n (bytes ++ more) = decodeResponse cur n bytes := by
  match bytes with
  | [] => exact absurd rfl h
  | [a] =>
    have ha : a ≠ cur := fun ha => h (by simp [decodeResponse, ha])
    simp [decodeResponse, ha]
  | [a, f] =>
    by_cases ha : a = cur
    · have hf : f ≠ funcCode := fun hf => h (by simp [decodeResponse, ha, hf])
      simp [decodeResponse, ha, hf]
    · simp [decodeResponse, ha]
  | a :: f :: c :: t =>
    by_cases ha : a = cur
    case neg => simp [decodeResponse, ha]
    by_cases hf : f = funcCode
    case neg => simp [decodeResponse, hf]
    by_cases hc : c.toNat = requestedByteCount n
    case neg => simp [decodeResponse, hc]
    subst ha hf
    have hfull : ¬ t.length + 3 < expectedTotal c := fun hlt => h (by rw [decodeResponse_of_header hc, if_pos hlt])
    have hfull' : ¬ (t ++ more).length + 3 < expectedTotal c := by rw [List.length_append]; omega
    have htake : (a :: funcCode :: c :: (t ++ more)).take (expectedTotal c) =
        (a :: funcCode :: c :: t).take (expectedTotal c) :=
      List.take_append_of_le_length (l₁ := a :: funcCode :: c :: t) (Nat.le_of_not_lt hfull)
    simp only [List.cons_append, decodeResponse_of_header hc, htake, if_neg hfull, if_neg hfull']

/-- A verdict is given at one byte: those before it are incomplete. -/
theorem exists_deciding_byte {cur : Byte} {n : Nat} {l : List (Byte × Timestamp)}
    (hne : decodeResponse cur n (l.map Prod.fst) ≠ .incomplete) :
    ∃ pre p post, l = pre ++ p :: post ∧ decodeResponse cur n (pre.map Prod.fst) = .incomplete ∧
      decodeResponse cur n (pre.map Prod.fst ++ [p.1]) = decodeResponse cur n (l.map Prod.fst) := by
  induction l using List.reverseRecOn with
  | nil => exact absurd rfl hne
  | append_singleton l p ih =>
    rw [List.map_append] at hne ⊢
    by_cases hl : decodeResponse cur n (l.map Prod.fst) = .incomplete
    · exact ⟨l, p, [], rfl, hl, rfl⟩
    · obtain ⟨pre, q, post, rfl, hpre, hq⟩ := ih hl
      exact ⟨pre, q, post ++ [p], by simp, hpre, hq.trans (decodeResponse_append _ hl).symm⟩

theorem expectedTotal_of_requested {c : Byte} {n : Nat} (h : c.toNat = requestedByteCount n) :
    expectedTotal c = 5 + 2 * n := by
  rw [expectedTotal, h, requestedByteCount]
  omega

/-- An accepted sequence starts with a frame of the length asked for, sent by the polled slave. -/
theorem decodeResponse_accepted {cur : Byte} {n : Nat} {bytes : List Byte} {f : ResponseFrame}
    (h : decodeResponse cur n bytes = .accepted f) :
    bytes[0]? = some cur ∧ 5 + 2 * n ≤ bytes.length ∧ responseOf (bytes.take (5 + 2 * n)) = f := by
  obtain ⟨haddr, -, c, -, hc, hlen, -, hf⟩ := decodeResponse_accepted_iff.1 h
  rw [expectedTotal_of_requested hc] at hlen hf
  exact ⟨haddr, hlen, hf⟩

/-- With its byte count in, an incomplete sequence is short of the length asked for. -/
theorem decodeResponse_incomplete_length {cur : Byte} {n : Nat} {bytes : List Byte}
    (h : decodeResponse cur n bytes = .incomplete) (h3 : 3 ≤ bytes.length) : bytes.length < 5 + 2 * n := by
  obtain ⟨-, -, hheader⟩ := decodeResponse_incomplete_iff.1 h
  obtain ⟨hc, hlt⟩ := hheader bytes[2] (List.getElem?_eq_getElem h3)
  exact hlt.trans_eq (expectedTotal_of_requested hc)

/-! The bytes received for an outstanding request, so far all accepted. -/

/-- These bytes have been received for the outstanding request to `cur`; they have passed their checks and do not fill
the frame, which fits the buffer (R165). -/
structure Collecting (s : State) (cur : Byte) (bytes : List Byte) : Prop where
  waiting : Waiting s cur
  received : s.received = some bytes
  incomplete : decodeResponse cur s.config.regCount bytes = .incomplete
  count : s.config.regCount ≤ 125

/-- There is room for the next byte (R165). -/
theorem Collecting.room {s : State} {cur : Byte} {bytes : List Byte} (h : Collecting s cur bytes) :
    s.bufLen < bufDepth := by
  have hcount := h.count
  have hlen := decodeResponse_incomplete_length h.incomplete
  rw [← received_length h.received, bufDepth]
  omega

/-- The bytes of a buffer listed without gaps (R24). -/
theorem readRange_of_range' {m : Memory} {i n : Nat} (h : m.map Prod.fst = List.range' i n) :
    Memory.readRange m i n = some (m.map Prod.snd) := by
  induction m generalizing i n with
  | nil =>
    obtain rfl : n = 0 := by simpa using h.symm
    rfl
  | cons c t ih =>
    obtain ⟨x, v⟩ := c
    cases n with
    | zero => simp at h
    | succ n =>
      rw [List.range'_succ, List.map_cons, List.cons.injEq] at h
      obtain ⟨rfl, h⟩ := h
      have htail : Memory.readRange ((x, v) :: t) (x + 1) n = some (t.map Prod.snd) := by
        rw [← ih h]
        exact Memory.readRange_congr _ _ _ _ fun j hj _ => if_neg (by omega)
      exact (Memory.readRange_succ_some _ _ _ _).2 ⟨v, _, if_pos rfl, htail, rfl⟩

/-- Under the invariant what has been received for the outstanding request has passed its checks (R39 (4)). -/
theorem Inv.collecting {s : State} {cur : Byte} (hs : Inv s) (hw : Waiting s cur) :
    ∃ bytes, Collecting s cur bytes := by
  obtain ⟨cur', hcur, -, -, hheader⟩ := hs.waitHeader hw.asm
  obtain rfl : cur' = cur := Option.some.inj (hcur.symm.trans hw.polledSlave)
  have hrec : s.received = some (s.buf.map Prod.snd) :=
    readRange_of_range' (hs.bufExact.trans List.range_eq_range')
  obtain ⟨-, hcount⟩ := hs.waitCount hw.asm
  refine ⟨_, hw, hrec, ?_, hcount⟩
  have hread : ∀ i x, (s.buf.map Prod.snd)[i]? = some x → i < s.bufLen ∧ Memory.read s.buf i = some x := by
    intro i x hx
    obtain ⟨hi, -⟩ := List.getElem?_eq_some_iff.1 hx
    exact ⟨received_length hrec ▸ hi, (received_getElem? hrec hi).symm.trans hx⟩
  refine decodeResponse_incomplete_iff.2 ⟨fun a ha => ?_, fun f hf => ?_, fun c hc => ?_⟩
  · obtain ⟨hlen, ha⟩ := hread 0 a ha
    exact Option.some.inj (ha.symm.trans (hheader.address hlen))
  · obtain ⟨hlen, hf⟩ := hread 1 f hf
    exact Option.some.inj (hf.symm.trans (hheader.function hlen))
  · obtain ⟨hlen, hc⟩ := hread 2 c hc
    obtain ⟨c', hc', hcount⟩ := hheader.byteCount hlen
    obtain rfl : c' = c := Option.some.inj (hc'.symm.trans hc)
    rw [received_length hrec, expectedTotal_of_requested hcount]
    exact ⟨hcount, hs.waitLen hw.asm⟩

/-- Where the byte just judged leaves the block, by the verdict of `DECODE` on all bytes received. -/
def State.closedBy (v : Verdict) (cur : Byte) (now : Timestamp) (bytes : List Byte) (s : State) : State :=
  match v with
  | .incomplete => s
  | .accepted _ => completeCycle bytes now s
  | .frameMismatch => raiseError .frameMismatch now cur.toNat s
  | .checksumMismatch => raiseError .checksumMismatch now cur.toNat s

/-- A verdict other than incomplete leaves no request outstanding. -/
theorem closedBy_asmState_ne {v : Verdict} {cur : Byte} {now : Timestamp} {bytes : List Byte} {s : State}
    (hv : v ≠ .incomplete) : (s.closedBy v cur now bytes).asmState ≠ .accumulating := by
  cases v with
  | incomplete => exact absurd rfl hv
  | accepted f => exact AsmState.noConfusion
  | frameMismatch => exact AsmState.noConfusion
  | checksumMismatch => exact AsmState.noConfusion

/-- Judging the byte just appended is `DECODE` over all bytes received, when those before it were incomplete. -/
theorem judgeByte_eq_decodeResponse {c : Config} {now : Timestamp} {s : State} {cur b : Byte} {bytes : List Byte}
    (hcur : s.curSlave = some cur) (hrec : s.received = some (bytes ++ [b]))
    (hinc : decodeResponse cur c.regCount bytes = .incomplete) :
    judgeByte c now s =
      .next (s.closedBy (decodeResponse cur c.regCount (bytes ++ [b])) cur now (bytes ++ [b])) := by
  have hlen := received_length hrec
  have hread := fun i hi => (received_getElem? hrec (i := i) hi).symm
  obtain ⟨haddr, hfunc, hcount⟩ := decodeResponse_incomplete_iff.1 hinc
  match bytes with
  | [] =>
    rw [judgeByte_first hlen.symm (hread 0 (by simp)) hcur]
    by_cases hb : b = cur <;> simp [decodeResponse, State.closedBy, hb]
  | [a] =>
    obtain rfl := haddr a rfl
    rw [judgeByte_second hlen.symm (hread 1 (by simp)) hcur]
    by_cases hb : b = funcCode <;> simp [decodeResponse, State.closedBy, hb]
  | [a, f] =>
    obtain rfl := haddr a rfl
    obtain rfl := hfunc f rfl
    have hshort := expectedTotal_ge b
    rw [judgeByte_third hlen.symm (hread 2 (by simp)) hcur]
    by_cases hb : b.toNat = requestedByteCount c.regCount
    · simp [decodeResponse_of_header hb, State.closedBy, hb, show 3 < expectedTotal b by omega]
    · simp [decodeResponse, State.closedBy, hb]
  | a :: f :: n :: t =>
    obtain rfl := haddr a rfl
    obtain rfl := hfunc f rfl
    obtain ⟨hn, hmore⟩ := hcount n rfl
    have hn2 : Memory.read s.buf 2 = some n := hread 2 (by simp)
    have hlast : s.bufLen = t.length + 4 := by simp [← hlen]
    have hmore : t.length + 3 < expectedTotal n := hmore
    have htotal : (t ++ [b]).length + 3 = s.bufLen := hlen
    rw [List.cons_append, List.cons_append, List.cons_append, decodeResponse_of_header hn, htotal]
    by_cases hfull : s.bufLen = expectedTotal n
    · have hwhole : (a :: funcCode :: n :: (t ++ [b])).take (expectedTotal n) = a :: funcCode :: n :: (t ++ [b]) :=
        List.take_of_length_le (htotal.trans hfull).le
      rw [judgeByte_last hn2 hfull hrec hcur, hwhole, if_neg hfull.not_lt]
      cases hok : checksumOk (a :: funcCode :: n :: (t ++ [b])) <;> simp [State.closedBy, hok]
    · have hshort : s.bufLen < expectedTotal n := by omega
      rw [judgeByte_data (by omega) hn2 hfull, if_pos hshort]
      rfl

/-- One more byte for an outstanding request: the verdict on all bytes decides. -/
theorem Collecting.exec_rxByte {s : State} {cur : Byte} {bytes : List Byte} (h : Collecting s cur bytes) (b : Byte)
    (now : Timestamp) :
    exec (.rxByte b now) s = .next ((s.appended b).closedBy
      (decodeResponse cur s.config.regCount (bytes ++ [b])) cur now (bytes ++ [b])) :=
  (execRxByte_of_waiting h.waiting h.room b now).trans
    (judgeByte_eq_decodeResponse h.waiting.polledSlave (received_appended b h.received) h.incomplete)

/-- Settles O54: the invariant bounds both lengths, and what an outstanding request has received leaves room for the
next byte. -/
theorem bufferNeverOverflows : Obligations.BufferNeverOverflows := by
  intro s b now hs hasm
  have hlen := hs.waitLen hasm
  obtain ⟨hcount1, hcount125⟩ := hs.waitCount hasm
  refine ⟨by omega, by omega, fun i hfault => ?_, fun t ht => (exec_inv hs ht).bufLe⟩
  cases hh : s.halted with
  | true => simp [bytesWithoutRequestAreDiscarded s b now (.inl hh)] at hfault
  | false =>
    by_cases hc : s.configIn = s.config
    · obtain ⟨cur, hcur, -⟩ := hs.waitHeader hasm
      obtain ⟨bytes, hbytes⟩ := hs.collecting ⟨hh, hasm, hc, hcur⟩
      simp [hbytes.exec_rxByte] at hfault
    · simp [exec, execRxByte_of_changed b now hh hc hasm] at hfault

/-! Any number of bytes for an outstanding request (R152, R166). -/

theorem rxAll_append (l m : List (Byte × Timestamp)) : rxAll (l ++ m) = rxAll l ++ rxAll m := List.map_append

section
variable {s : State} {cur : Byte} (h : Collecting s cur []) (l : List (Byte × Timestamp))
include h

/-- Bytes that are incomplete are collected, and nothing is reported. -/
theorem Collecting.execAll_rxAll
    (hinc : decodeResponse cur s.config.regCount (l.map Prod.fst) = .incomplete) :
    ∃ t, execAll (rxAll l) s = .next t ∧ Collecting t cur (l.map Prod.fst) ∧ t.config = s.config ∧
      t.trace = s.trace := by
  induction l using List.reverseRecOn with
  | nil => exact ⟨s, rfl, h, rfl, rfl⟩
  | append_singleton l p ih =>
    rw [List.map_append, List.map_singleton] at hinc ⊢
    have hpre : decodeResponse cur s.config.regCount (l.map Prod.fst) = .incomplete := by
      by_contra hne
      exact hne (decodeResponse_append _ hne ▸ hinc)
    obtain ⟨t, hrun, ht, hconfig, htrace⟩ := ih hpre
    have hlast := ht.exec_rxByte p.1 p.2
    rw [hconfig, hinc] at hlast
    refine ⟨t.appended p.1, ?_, ?_, hconfig, htrace⟩
    · rw [rxAll_append, execAll_append hrun]
      exact execAll_cons_next.2 ⟨_, hlast, rfl⟩
    · exact ⟨ht.waiting.appended p.1, received_appended p.1 ht.received, hconfig ▸ hinc, ht.count⟩

/-- Bytes with another verdict close the cycle at the byte that decides; what follows is discarded. -/
theorem Collecting.execAll_rxAll_closed {v : Verdict}
    (hv : decodeResponse cur s.config.regCount (l.map Prod.fst) = v) (hne : v ≠ .incomplete) :
    ∃ pre p post u, l = pre ++ p :: post ∧ Collecting u cur (pre.map Prod.fst) ∧ u.config = s.config ∧
      u.trace = s.trace ∧ decodeResponse cur s.config.regCount (pre.map Prod.fst ++ [p.1]) = v ∧
      execAll (rxAll l) s = .next ((u.appended p.1).closedBy v cur p.2 (pre.map Prod.fst ++ [p.1])) := by
  obtain ⟨pre, p, post, rfl, hpre, hp⟩ := exists_deciding_byte (hv ▸ hne)
  obtain ⟨u, hrun, hu, hconfig, htrace⟩ := h.execAll_rxAll pre hpre
  have hlast := hu.exec_rxByte p.1 p.2
  rw [hconfig, hp, hv] at hlast
  refine ⟨pre, p, post, u, rfl, hu, hconfig, htrace, hp.trans hv, ?_⟩
  rw [rxAll_append, execAll_append hrun]
  exact execAll_cons_next.2 ⟨_, hlast, execAll_rxAll_discarded (.inr (closedBy_asmState_ne hne)) post⟩

end

/-- What an accepted frame leaves: the frame in the buffer, and the report of its registers for the polled slave. -/
theorem Collecting.closedBy_accepted {u : State} {cur b : Byte} {bytes : List Byte} {f : ResponseFrame}
    (h : Collecting u cur bytes) (hv : decodeResponse cur u.config.regCount (bytes ++ [b]) = .accepted f)
    (now : Timestamp) :
    (bytes ++ [b]).length = 5 + 2 * u.config.regCount ∧
    ((u.appended b).closedBy (.accepted f) cur now (bytes ++ [b])).received = some (bytes ++ [b]) ∧
    ((u.appended b).closedBy (.accepted f) cur now (bytes ++ [b])).trace =
      u.trace ++ [.report now cur.toNat (.success f.registers)] := by
  obtain ⟨haddr, hge, hf⟩ := decodeResponse_accepted hv
  have hlt := decodeResponse_incomplete_length h.incomplete
  rw [List.length_append, List.length_singleton] at hge
  have hlen : (bytes ++ [b]).length = 5 + 2 * u.config.regCount := by
    rw [List.length_append, List.length_singleton]; omega
  rw [List.take_of_length_le hlen.le] at hf
  have hslave : (responseOf (bytes ++ [b])).slaveAddress = cur := by
    rw [responseOf, List.getD_eq_getElem?_getD, haddr, Option.getD_some]
  refine ⟨hlen, received_appended b h.received, ?_⟩
  rw [State.closedBy, completeCycle_trace, hslave, hf, State.appended_trace]

/-- With no byte in yet the invariant leaves a fresh cycle. -/
theorem Inv.collecting_nil {s : State} {cur : Byte} (hs : Inv s) (hw : Waiting s cur) (hlen : s.bufLen = 0) :
    Collecting s cur [] := by
  obtain ⟨bytes, h⟩ := hs.collecting hw
  obtain rfl : bytes = [] := List.length_eq_zero_iff.1 ((received_length h.received).trans hlen)
  exact h

/-- Settles O38: incomplete bytes are all collected; otherwise one byte decides, and closes the cycle as its verdict
says. -/
theorem serialAssemblyIsDecode : Obligations.SerialAssemblyIsDecode := by
  intro s cur l hs hw hlen
  have h := hs.collecting_nil hw hlen
  by_cases hinc : decodeResponse cur s.config.regCount (l.map Prod.fst) = .incomplete
  · obtain ⟨t, hrun, ht, -, htrace⟩ := h.execAll_rxAll l hinc
    rw [hinc]
    exact ⟨t, hrun, ht.waiting.asm, ht.received, htrace⟩
  obtain ⟨pre, p, post, u, rfl, hu, hconfig, htrace, hp, hrun⟩ := h.execAll_rxAll_closed l rfl hinc
  have hts : p.2 ∈ (pre ++ p :: post).map Prod.snd := by simp
  refine ⟨_, hrun, ?_⟩
  generalize decodeResponse cur s.config.regCount ((pre ++ p :: post).map Prod.fst) = v at hinc hp hrun ⊢
  rw [← htrace]
  cases v with
  | incomplete => exact absurd rfl hinc
  | accepted f =>
    obtain ⟨hfull, hrec, hout⟩ := hu.closedBy_accepted (hconfig ▸ hp) p.2
    have htake : ((pre ++ p :: post).map Prod.fst).take (5 + 2 * s.config.regCount) = pre.map Prod.fst ++ [p.1] := by
      rw [List.map_append, List.map_cons, List.append_cons]
      exact List.take_left' (hfull.trans (by rw [hconfig]))
    exact ⟨rfl, htake ▸ hrec, p.2, hts, hout⟩
  | frameMismatch => exact ⟨rfl, rfl, p.2, hts, rfl⟩
  | checksumMismatch => exact ⟨rfl, rfl, p.2, hts, rfl⟩

/-! A correct response, and one with a bit flipped (R169). -/

/-- The five fields of a correct response (R75, R169). -/
def correctResponse (slave : Byte) (regs : List Word16) : ResponseFrame :=
  { slaveAddress := slave
    functionCode := funcCode
    byteCount := BitVec.ofNat 8 (requestedByteCount regs.length)
    registers := regs
    checksum := crc16 (slave :: funcCode :: BitVec.ofNat 8 (requestedByteCount regs.length) :: registerBytes regs) }

theorem responseBytes_correctResponse (slave : Byte) (regs : List Word16) :
    responseBytes (correctResponse slave regs) = goodResponse slave regs := rfl

theorem goodResponse_length (slave : Byte) (regs : List Word16) :
    (goodResponse slave regs).length = 5 + 2 * regs.length :=
  responseBytes_length (correctResponse slave regs)

theorem crc16_goodResponse (slave : Byte) (regs : List Word16) : crc16 (goodResponse slave regs) = 0#16 :=
  crc16_withChecksum _

/-- A requested byte count fits its byte (R131, R157). -/
theorem requestedByteCount_toNat {n : Nat} (h : n ≤ 125) :
    (BitVec.ofNat 8 (requestedByteCount n)).toNat = requestedByteCount n :=
  Nat.mod_eq_of_lt (by rw [requestedByteCount]; omega)

theorem decodeResponse_goodResponse (slave : Byte) {regs : List Word16} (h : regs.length ≤ 125) :
    decodeResponse slave regs.length (goodResponse slave regs) = .accepted (correctResponse slave regs) := by
  have hbody : (goodResponse slave regs).take (3 + 2 * regs.length) =
      slave :: funcCode :: BitVec.ofNat 8 (requestedByteCount regs.length) :: registerBytes regs :=
    List.take_left' (by simp; omega)
  rw [← responseBytes_correctResponse]
  exact decodeResponse_accepts_itself_iff.2
    ⟨rfl, rfl, requestedByteCount_toNat h, rfl, congrArg crc16 hbody.symm⟩

/-- Settles O39: `DECODE` accepts the bytes, and a full frame is decided at its last byte. -/
theorem correctResponseIsAccepted : Obligations.CorrectResponseIsAccepted := by
  intro s cur regs l hs hw hlen hregs hl
  have h := hs.collecting_nil hw hlen
  have hv := decodeResponse_goodResponse cur (hregs ▸ h.count)
  rw [hregs, ← hl] at hv
  obtain ⟨pre, p, post, u, rfl, hu, hconfig, htrace, hp, hrun⟩ := h.execAll_rxAll_closed l hv (by simp)
  obtain ⟨hfull, -, hout⟩ := hu.closedBy_accepted (hconfig ▸ hp) p.2
  have hlast : post = [] := by
    have hlength := congrArg List.length hl
    rw [goodResponse_length, hregs, ← hconfig, ← hfull] at hlength
    simpa using hlength
  subst hlast
  exact ⟨_, p.2, hrun, by simp, rfl, htrace ▸ hout⟩

/-- A frame with one byte changed: a header byte fails its check; behind the header the checksum fails, since the
residual is no longer zero (R111). -/
theorem decodeResponse_modify {slave c : Byte} {n : Nat} {t : List Byte} {g : Byte → Byte} {i : Nat}
    (hg : ∀ b, g b ≠ b) (hc : c.toNat = requestedByteCount n)
    (hlen : (slave :: funcCode :: c :: t).length = expectedTotal c)
    (hzero : crc16 (slave :: funcCode :: c :: t) = 0#16) (hi : i < (slave :: funcCode :: c :: t).length) :
    decodeResponse slave n ((slave :: funcCode :: c :: t).modify i g) =
      if i < 3 then .frameMismatch else .checksumMismatch := by
  match i with
  | 0 => simp [decodeResponse, hg]
  | 1 => simp [decodeResponse, hg]
  | 2 =>
    have hne : (g c).toNat ≠ requestedByteCount n := fun heq => hg c (BitVec.eq_of_toNat_eq (heq.trans hc.symm))
    simp [decodeResponse, hne]
  | j + 3 =>
    have hresidual : crc16 (slave :: funcCode :: c :: t.modify j g) ≠ 0#16 :=
      (crc16Update_modify_ne hg crcInitValue hi).trans_eq hzero
    have hbad : checksumOk (slave :: funcCode :: c :: t.modify j g) ≠ true := fun hok => by
      obtain ⟨body, hbody⟩ := checksumOk_iff.1 hok
      exact hresidual (hbody ▸ crc16_withChecksum body)
    have hfull : (t.modify j g).length + 3 = expectedTotal c := by rw [List.length_modify]; exact hlen
    change decodeResponse slave n (slave :: funcCode :: c :: t.modify j g) = _
    rw [decodeResponse_of_header hc, List.take_of_length_le hfull.le, if_neg hfull.not_lt, if_neg hbad,
      if_neg (by omega)]

theorem decodeResponse_flipBit (slave : Byte) {regs : List Word16} {k : Nat} (h : regs.length ≤ 125)
    (hk : k < 8 * (goodResponse slave regs).length) :
    decodeResponse slave regs.length (flipBit (goodResponse slave regs) k) =
      if k < 24 then .frameMismatch else .checksumMismatch := by
  have hcount := requestedByteCount_toNat h
  have hbyte : k / 8 < 3 ↔ k < 24 := by omega
  simp only [← hbyte]
  exact decodeResponse_modify (xor_bit_ne (Nat.mod_lt k (by decide))) hcount
    ((goodResponse_length slave regs).trans (expectedTotal_of_requested hcount).symm) (crc16_goodResponse slave regs)
    (Nat.div_lt_of_lt_mul hk)

/-- Settles O40: the verdict of `DECODE` on the flipped response is a mismatch, which one byte reports. -/
theorem singleBitFlipIsNeverAccepted : Obligations.SingleBitFlipIsNeverAccepted := by
  intro s cur regs k l hs hw hlen hregs hk hl
  have h := hs.collecting_nil hw hlen
  have hv := decodeResponse_flipBit cur (hregs ▸ h.count) hk
  rw [hregs, ← hl] at hv
  obtain ⟨pre, p, post, u, rfl, hu, -, htrace, -, hrun⟩ :=
    h.execAll_rxAll_closed l hv (by split <;> simp)
  refine ⟨_, p.2, hrun, by simp, ?_⟩
  split
  · exact ⟨rfl, by rw [← htrace]; rfl⟩
  · exact ⟨rfl, by rw [← htrace]; rfl⟩

end Sys2Proof.Machine

/-! Proofs, family 43_poll_scheduler.md: `TICK` (R190 to R201), the rotation over the slave list (R200) and the exchange
of requests and outcomes (R202). -/

namespace Sys2Proof.Machine

/-! The exchange that a trace shows (R202). -/

theorem exchange_concat (l : List Output) (o : Output) : exchange (l ++ [o]) = exchangeStep (exchange l) o :=
  List.foldl_concat ..

/-- The trace shows open exactly the request that the registers hold. -/
def ExchangeAgrees (s : State) : Prop := exchange s.trace = some s.openRequest

theorem openRequest_of_accumulating {s : State} (h : s.asmState = .accumulating) : s.openRequest = s.curSlave :=
  if_pos h

theorem openRequest_of_not_accumulating {s : State} (h : s.asmState ≠ .accumulating) : s.openRequest = none :=
  if_neg h

/-- The report of an error of the cycle closes the open request of the slave it names (R198, R161). -/
theorem exchangeStep_errorOutput {k : ErrorKind} (hk : k = .timeout ∨ k = .frameMismatch ∨ k = .checksumMismatch)
    (now : Timestamp) (cur : Byte) :
    exchangeStep (some (some cur)) (errorOutput k now cur.toNat) = some none := by
  obtain rfl | rfl | rfl := hk <;> exact if_pos rfl

theorem exchangeStep_fatal (r : Option Byte) (e : ErrorKind) : exchangeStep (some r) (.fatal e) = some r := by
  cases r <;> rfl

/-- With no request open, an attempt opens the one it sends, or none when it is rejected. -/
theorem attemptRequest_exchange {c : Config} {now : Timestamp} {s t : State} (hs : exchange s.trace = some none)
    (h : attemptRequest c now s = .next t) : ExchangeAgrees t := by
  unfold ExchangeAgrees
  obtain ⟨-, a, -, ⟨-, rfl⟩ | ⟨-, rfl⟩⟩ := attemptRequest_next.1 h
  · rw [raiseError_trace, State.advanceCursor_trace, exchange_concat, hs]; rfl
  · rw [sendRequest_trace, State.advanceCursor_trace, exchange_concat, hs]; rfl

theorem execTick_exchange {now : Timestamp} {s t : State} (hs : ExchangeAgrees s) (h : execTick now s = .next t) :
    ExchangeAgrees t := by
  obtain ⟨-, rfl⟩ | ⟨-, -, ⟨hasm, h⟩ | ⟨hasm, ts, -, ⟨-, rfl⟩ | ⟨-, cur, hcur, h⟩⟩⟩ := execTick_next.1 h
  · exact hs
  · exact attemptRequest_exchange (hs.trans (by rw [openRequest_of_not_accumulating hasm])) h
  · exact hs
  · have hopen : exchange s.trace = some (some cur) := by rw [hs, openRequest_of_accumulating hasm, hcur]
    refine attemptRequest_exchange ?_ h
    rw [raiseError_trace, exchange_concat, hopen, exchangeStep_errorOutput (.inl rfl)]

/-- A byte judged to fail the cycle closes the request to the slave it reports. -/
theorem raiseError_exchange {k : ErrorKind} (hk : k = .frameMismatch ∨ k = .checksumMismatch) {now : Timestamp}
    {cur : Byte} {s : State} (hs : exchange s.trace = some (some cur)) :
    ExchangeAgrees (raiseError k now cur.toNat s) := by
  have hclosed : (raiseError k now cur.toNat s).openRequest = none := by obtain rfl | rfl := hk <;> rfl
  rw [ExchangeAgrees, raiseError_trace, exchange_concat, hs, exchangeStep_errorOutput (.inr hk), hclosed]

/-- A verified frame comes from the polled slave: its first byte has passed its check (R155, R160). -/
theorem Inv.curSlave_of_complete {s : State} {frame : List Byte} (hs : Inv s) (hasm : s.asmState = .complete)
    (hframe : s.received = some frame) : s.curSlave = some (responseOf frame).slaveAddress := by
  obtain ⟨cur, hcur, hheader⟩ := hs.completeHeader hasm
  have hlen := hs.completeLen hasm
  have hframeLen := received_length hframe
  have hfirst : frame[0]? = some cur := (received_getElem? hframe (by omega)).trans (hheader.address (by omega))
  rw [hcur, responseOf, List.getD_eq_getElem?_getD, hfirst, Option.getD_some]

theorem execRxByte_exchange {b : Byte} {now : Timestamp} {s t : State} (hs : ExchangeAgrees s) (ht : Inv t)
    (h : execRxByte b now s = .next t) : ExchangeAgrees t := by
  obtain ⟨-, rfl⟩ | ⟨-, hasm, -, -, h⟩ := execRxByte_next.1 h
  · exact hs
  · have hopen : exchange s.trace = some s.curSlave := by rw [hs, openRequest_of_accumulating hasm]
    obtain rfl | ⟨cur, hcur, rfl | rfl⟩ | ⟨frame, hframe, -, rfl⟩ := judgeByte_next h
    · exact hs
    · exact raiseError_exchange (.inl rfl) (hopen.trans (congrArg some hcur))
    · exact raiseError_exchange (.inr rfl) (hopen.trans (congrArg some hcur))
    · have hcur : s.curSlave = some (responseOf frame).slaveAddress := ht.curSlave_of_complete rfl hframe
      rw [ExchangeAgrees, completeCycle_trace, exchange_concat, State.appended_trace, hopen, hcur]
      exact if_pos rfl

/-- Every operation but `RST` keeps the agreement on the open request; `RX_BYTE` needs the invariant, by which the frame
it completes comes from the polled slave. -/
theorem exec_exchangeInv {i : Instr} {s t : State} (hrst : i ≠ .rst) (hs : ExchangeInv s) (h : exec i s = .next t) :
    ExchangeInv t := by
  obtain ⟨hinv, hs⟩ := hs
  have ht := exec_inv hinv h
  refine ⟨ht, ?_⟩
  cases i with
  | rst => exact absurd rfl hrst
  | tick now => exact execTick_exchange hs h
  | rxByte b now => exact execRxByte_exchange hs ht h
  | terr =>
    obtain ⟨-, rfl⟩ | ⟨-, rfl⟩ := execTerr_next.1 h
    · exact hs
    · rw [raiseError_trace, exchange_concat, hs]
      exact exchangeStep_fatal s.openRequest .transportError
  | nop => obtain rfl := next_eq.1 h; exact hs
  | crcInit => obtain rfl := next_eq.1 h; exact hs
  | crcByte b => obtain rfl := next_eq.1 h; exact hs
  | encode a n m => obtain ⟨r, rfl⟩ := execEncode_next h; exact hs
  | decode frame => obtain ⟨r, rfl⟩ := execDecode_next h; exact hs

/-! The rotation over the slave list (R194, R200). -/

theorem attempted_append (l m : List Output) : attempted (l ++ m) = attempted l ++ attempted m :=
  List.filterMap_append

/-- Nothing is attempted and the cursor stays. -/
def CursorStays (s t : State) : Prop := attempted t.trace = attempted s.trace ∧ t.cursorIdx = s.cursorIdx

/-- The slave the cursor selects is attempted, and the cursor moves on by one, wrapping (R194). -/
def CursorMoves (s t : State) : Prop :=
  ∃ a, s.config.slaves[s.cursorIdx]? = some a ∧ attempted t.trace = attempted s.trace ++ [a] ∧
    t.cursorIdx = (s.cursorIdx + 1) % s.config.slaves.length

/-- Of the errors, only a rejected attempt is one on a slave. -/
theorem attempted_errorOutput {k : ErrorKind} (hk : k ≠ .invalidParameter) (now : Timestamp) (addr : Nat) :
    attempted [errorOutput k now addr] = [] := by
  cases k with
  | invalidParameter => exact absurd rfl hk
  | transportError | checksumMismatch | frameMismatch | timeout => rfl

theorem attempted_requestFrame {a n m : Nat} (h : legalRequest a n m = true) :
    attempted [.tx (requestFrame a n m)] = [a] := by
  obtain ⟨haddr, -⟩ := requestFrame_bytes h
  exact congrArg (fun x => [x]) haddr

theorem attemptRequest_cursorMoves {now : Timestamp} {s t : State} (h : attemptRequest s.config now s = .next t) :
    CursorMoves s t := by
  obtain ⟨-, a, ha, ⟨-, rfl⟩ | ⟨hlegal, rfl⟩⟩ := attemptRequest_next.1 h
  · exact ⟨a, ha, attempted_append .., rfl⟩
  · refine ⟨a, ha, ?_, rfl⟩
    rw [sendRequest_trace, attempted_append, attempted_requestFrame hlegal, State.advanceCursor_trace]

theorem raiseError_attempted {k : ErrorKind} (hk : k ≠ .invalidParameter) (now : Timestamp) (addr : Nat) (s : State) :
    attempted (raiseError k now addr s).trace = attempted s.trace := by
  rw [raiseError_trace, attempted_append, attempted_errorOutput hk, List.append_nil]

theorem execTick_rotates {now : Timestamp} {s t : State} (h : execTick now s = .next t) :
    CursorStays s t ∨ CursorMoves s t := by
  obtain ⟨-, rfl⟩ | ⟨-, -, ⟨-, h⟩ | ⟨-, ts, -, ⟨-, rfl⟩ | ⟨-, cur, -, h⟩⟩⟩ := execTick_next.1 h
  · exact .inl ⟨rfl, rfl⟩
  · exact .inr (attemptRequest_cursorMoves h)
  · exact .inl ⟨rfl, rfl⟩
  · obtain ⟨a, ha, htrace, hcursor⟩ := attemptRequest_cursorMoves (s := raiseError .timeout now cur.toNat s) h
    rw [raiseError_attempted (by decide)] at htrace
    exact .inr ⟨a, ha, htrace, hcursor⟩

theorem execRxByte_cursorStays {b : Byte} {now : Timestamp} {s t : State} (h : execRxByte b now s = .next t) :
    CursorStays s t := by
  obtain ⟨-, rfl⟩ | ⟨-, -, -, -, h⟩ := execRxByte_next.1 h
  · exact ⟨rfl, rfl⟩
  · obtain rfl | ⟨cur, -, rfl | rfl⟩ | ⟨frame, -, -, rfl⟩ := judgeByte_next h
    · exact ⟨rfl, rfl⟩
    · exact ⟨raiseError_attempted (by decide) .., rfl⟩
    · exact ⟨raiseError_attempted (by decide) .., rfl⟩
    · exact ⟨(attempted_append ..).trans (List.append_nil _), rfl⟩

/-- Of the operations that are no reset, only a `TICK` moves the cursor. -/
theorem exec_rotates {i : Instr} {s t : State} (hrst : i ≠ .rst) (h : exec i s = .next t) :
    CursorStays s t ∨ CursorMoves s t := by
  cases i with
  | rst => exact absurd rfl hrst
  | tick now => exact execTick_rotates h
  | rxByte b now => exact .inl (execRxByte_cursorStays h)
  | terr =>
    obtain ⟨-, rfl⟩ | ⟨-, rfl⟩ := execTerr_next.1 h
    · exact .inl ⟨rfl, rfl⟩
    · exact .inl ⟨raiseError_attempted (by decide) .., rfl⟩
  | nop => obtain rfl := next_eq.1 h; exact .inl ⟨rfl, rfl⟩
  | crcInit => obtain rfl := next_eq.1 h; exact .inl ⟨rfl, rfl⟩
  | crcByte b => obtain rfl := next_eq.1 h; exact .inl ⟨rfl, rfl⟩
  | encode a n m => obtain ⟨r, rfl⟩ := execEncode_next h; exact .inl ⟨rfl, rfl⟩
  | decode frame => obtain ⟨r, rfl⟩ := execDecode_next h; exact .inl ⟨rfl, rfl⟩

/-- Settles O60: a case per operation for the exchange and one for the rotation; a `TICK` turns on its attempt, an
`RX_BYTE` on its judgement. -/
theorem everyOperationKeepsExchangeAndRotation : Obligations.EveryOperationKeepsExchangeAndRotation :=
  fun _ _ _ hrst h => ⟨fun hs => exec_exchangeInv hrst hs h, fun _ => exec_rotates hrst h⟩

/-! Runs without a reset. -/

/-- What every operation but `RST` keeps holds to the end of a run of such operations. -/
theorem execAll_keeps {P : State → Prop}
    (hP : ∀ {i : Instr} {s t : State}, i ≠ .rst → P s → exec i s = .next t → P t) {l : List Instr} {s t : State}
    (hl : NoReset l) (hs : P s) (h : execAll l s = .next t) : P t := by
  induction l generalizing s with
  | nil => obtain rfl := next_eq.1 h; exact hs
  | cons i l ih =>
    obtain ⟨hi, hrest⟩ := List.forall_mem_cons.1 hl
    obtain ⟨u, hu, ht⟩ := execAll_cons_next.1 h
    exact ih hrest (hP hi hs hu) ht

/-- The addresses of `k` attempts from the first position on, wrapping (R200). -/
def roundRobin (slaves : List Nat) (k : Nat) : List Nat :=
  (List.range k).map fun j => slaves.getD (j % slaves.length) 0

/-- Under the configuration `c`, the attempts so far are the list in order, and the cursor is where the next one is. -/
def InRotation (c : Config) (s : State) : Prop :=
  s.config = c ∧ ∃ k, attempted s.trace = roundRobin c.slaves k ∧ s.cursorIdx = k % c.slaves.length

theorem roundRobin_succ {slaves : List Nat} {k a : Nat} (h : slaves[k % slaves.length]? = some a) :
    roundRobin slaves (k + 1) = roundRobin slaves k ++ [a] := by
  simp [roundRobin, List.range_succ, List.getD_eq_getElem?_getD, h]

theorem exec_inRotation {c : Config} {i : Instr} {s t : State} (hrst : i ≠ .rst) (hs : InRotation c s)
    (h : exec i s = .next t) : InRotation c t := by
  obtain ⟨rfl, k, hseq, hcursor⟩ := hs
  obtain ⟨hconfig, -⟩ := exec_sameConfiguration hrst h
  obtain ⟨hseq', hcursor'⟩ | ⟨a, ha, hseq', hcursor'⟩ := exec_rotates hrst h
  · exact ⟨hconfig, k, hseq'.trans hseq, hcursor'.trans hcursor⟩
  · rw [hcursor] at ha hcursor'
    refine ⟨hconfig, k + 1, ?_, hcursor'.trans (Nat.mod_add_mod ..)⟩
    rw [hseq', hseq, roundRobin_succ ha]

theorem inRotation_resetWith (c : Config) : InRotation c (State.resetWith c) :=
  ⟨rfl, 0, rfl, (Nat.zero_mod _).symm⟩

/-- Settles O55: no attempt has been made at reset, and an operation goes on by one position or not at all. -/
theorem attemptsAreRoundRobin : Obligations.AttemptsAreRoundRobin := by
  intro c l t _ hl h
  obtain ⟨-, hrotation⟩ := execAll_keeps exec_inRotation hl (inRotation_resetWith c) h
  exact hrotation

theorem exchangeInv_resetWith {c : Config} (hc : listLegal c = true) : ExchangeInv (State.resetWith c) :=
  ⟨inv_resetWith hc, rfl⟩

/-- Settles O56: no request is open at reset, and every operation keeps the exchange invariant. -/
theorem oneRequestAtATime : Obligations.OneRequestAtATime := by
  intro c l t hc hl h
  obtain ⟨-, hopen⟩ := execAll_keeps exec_exchangeInv hl (exchangeInv_resetWith hc) h
  exact hopen

/-! Waiting for the outstanding request (R192, R193, R201). -/

/-- Settles O41: this is the first case of `TICK`. -/
theorem tickWhileHaltedDoesNothing : Obligations.TickWhileHaltedDoesNothing :=
  fun _ _ h => execTick_next.2 (.inl ⟨h, rfl⟩)

/-- An attempt is never without effect: it emits. -/
theorem attemptRequest_trace_length {c : Config} {now : Timestamp} {s t : State}
    (h : attemptRequest c now s = .next t) : t.trace.length = s.trace.length + 1 := by
  obtain ⟨a, -, ⟨-, ht⟩ | ⟨-, ht⟩⟩ := attemptRequest_trace h <;> simp [ht]

/-- A `TICK` that finds a request outstanding changes nothing exactly when that has not timed out. -/
theorem execTick_eq_self_iff {cur : Byte} {ts now : Timestamp} {s : State} (hw : Waiting s cur)
    (hts : s.lastSendTs = some ts) : execTick now s = .next s ↔ timedOut s.config now ts = false := by
  refine ⟨fun h => ?_, fun h =>
    execTick_next.2 (.inr ⟨hw.running, hw.stable, .inr ⟨hw.asm, ts, hts, .inl ⟨h, rfl⟩⟩⟩)⟩
  by_contra hto
  rw [execTick_of_timedOut hw.running hw.stable hw.asm hw.polledSlave hts (by simpa using hto)] at h
  have hlen := attemptRequest_trace_length h
  rw [raiseError_trace, List.length_append] at hlen
  omega

/-- Settles O42: otherwise the `TICK` is an attempt, which emits. -/
theorem tickWaitsExactlyUntilTimeout : Obligations.TickWaitsExactlyUntilTimeout := by
  intro s cur ts now hw hts _ _
  refine (execTick_eq_self_iff hw hts).trans ?_
  rw [← Bool.not_eq_true, timedOut_iff, Nat.not_lt]

/-! The attempt on the selected slave (R194 to R198). -/

section
variable {c : Config} {now : Timestamp} {s : State} {a : Nat}
  (hlist : 1 ≤ c.slaves.length ∧ c.slaves.length ≤ slavesMax) (ha : c.slaves[s.cursorIdx]? = some a)
include hlist ha

theorem attemptRequest_of_legal (hlegal : legalRequest a c.startAddr c.regCount = true) :
    attemptRequest c now s =
      .next (sendRequest a (requestFrame a c.startAddr c.regCount) now s.advanceCursor) :=
  attemptRequest_next.2 ⟨listLegal_iff.2 hlist, a, ha, .inr ⟨hlegal, rfl⟩⟩

theorem attemptRequest_of_illegal (hillegal : legalRequest a c.startAddr c.regCount = false) :
    attemptRequest c now s = .next (raiseError .invalidParameter now a s.advanceCursor) :=
  attemptRequest_next.2 ⟨listLegal_iff.2 hlist, a, ha, .inl ⟨hillegal, rfl⟩⟩

end

theorem ReadyFor.execTick {s : State} {a : Nat} (h : ReadyFor s a) (now : Timestamp) :
    execTick now s = attemptRequest s.config now s :=
  execTick_of_not_outstanding h.running h.stable h.asm

theorem Expired.execTick {s : State} {cur : Byte} {ts now : Timestamp} {a : Nat} (h : Expired s cur ts now a) :
    execTick now s = attemptRequest s.config now (raiseError .timeout now cur.toNat s) :=
  execTick_of_timedOut h.waiting.running h.waiting.stable h.waiting.asm h.waiting.polledSlave h.sent
    (timedOut_iff.2 h.exceeded)

/-- Settles O43: the `TICK` is an attempt with legal parameters. -/
theorem tickSendsNextRequest : Obligations.TickSendsNextRequest := by
  intro s now a hr ha1 ha247 hstart hcount1 hcount125
  have hlegal := legalRequest_iff.2 ⟨⟨ha1, ha247⟩, hstart, hcount1, hcount125⟩
  exact (hr.execTick now).trans (attemptRequest_of_legal hr.list hr.selected hlegal)

/-- Settles O44: the `TICK` is the report, then an attempt with legal parameters. -/
theorem tickReportsTimeoutThenSends : Obligations.TickReportsTimeoutThenSends := by
  intro s cur ts now a he ha1 ha247 hstart hcount1 hcount125
  have hlegal := legalRequest_iff.2 ⟨⟨ha1, ha247⟩, hstart, hcount1, hcount125⟩
  refine (he.execTick.trans (attemptRequest_of_legal he.list he.selected hlegal)).trans (next_eq.2 ?_)
  rw [List.append_cons]
  rfl

/-- Settles O45: on both paths the `TICK` ends in an attempt with illegal parameters. -/
theorem tickRejectsIllegalParameters : Obligations.TickRejectsIllegalParameters := by
  intro s now a hbad
  have hillegal : legalRequest a s.config.startAddr s.config.regCount = false := by
    rw [← Bool.not_eq_true, legalRequest_iff, and_assoc]
    exact hbad
  refine ⟨fun hr => ?_, fun cur ts he => ?_⟩
  · exact (hr.execTick now).trans (attemptRequest_of_illegal hr.list hr.selected hillegal)
  · refine (he.execTick.trans (attemptRequest_of_illegal he.list he.selected hillegal)).trans (next_eq.2 ?_)
    rw [List.append_cons]
    rfl

/-! What a `TICK` leaves unchanged (R190, R193 to R197). -/

/-- The registers that no `TICK` writes are as they were. -/
def OutsidePollingSame (s t : State) : Prop :=
  t.crc = s.crc ∧ t.halted = s.halted ∧ t.config = s.config ∧ t.configIn = s.configIn ∧ t.port = s.port ∧
  t.callResult = s.callResult

/-- An attempt was made: the buffer is empty, the cursor moved on, and slave and time are written with the selected
slave exactly when its request is sent. -/
def AttemptMade (now : Timestamp) (s t : State) : Prop :=
  t.bufLen = 0 ∧ (∀ x, Memory.read t.buf x = none) ∧
    t.cursorIdx = (s.cursorIdx + 1) % s.config.slaves.length ∧
    ((t.asmState = .accumulating ∧ t.lastSendTs = some now ∧
        ∃ a, s.config.slaves[s.cursorIdx]? = some a ∧ t.curSlave = some (BitVec.ofNat 8 a)) ∨
     (t.asmState = .idle ∧ t.curSlave = s.curSlave ∧ t.lastSendTs = s.lastSendTs))

theorem attemptRequest_frame {now : Timestamp} {s t : State} (h : attemptRequest s.config now s = .next t) :
    OutsidePollingSame s t ∧ AttemptMade now s t := by
  obtain ⟨-, a, ha, ⟨-, rfl⟩ | ⟨-, rfl⟩⟩ := attemptRequest_next.1 h
  · exact ⟨⟨rfl, rfl, rfl, rfl, rfl, rfl⟩, rfl, Memory.read_nil, rfl, .inr ⟨rfl, rfl, rfl⟩⟩
  · exact ⟨⟨rfl, rfl, rfl, rfl, rfl, rfl⟩, rfl, Memory.read_nil, rfl, .inl ⟨rfl, rfl, a, ha, rfl⟩⟩

theorem execTick_frame {now : Timestamp} {s t : State} (h : execTick now s = .next t) :
    OutsidePollingSame s t ∧ (t = s ∨ AttemptMade now s t) := by
  obtain ⟨-, rfl⟩ | ⟨-, -, ⟨-, h⟩ | ⟨-, ts, -, ⟨-, rfl⟩ | ⟨-, cur, -, h⟩⟩⟩ := execTick_next.1 h
  · exact ⟨⟨rfl, rfl, rfl, rfl, rfl, rfl⟩, .inl rfl⟩
  · exact (attemptRequest_frame h).imp_right .inr
  · exact ⟨⟨rfl, rfl, rfl, rfl, rfl, rfl⟩, .inl rfl⟩
  · exact (attemptRequest_frame (s := raiseError .timeout now cur.toNat s) h).imp_right .inr

/-- Settles O47: a `TICK` that is not ignored and does not wait is an attempt, with the frame of its two outcomes. -/
theorem tickFrame : Obligations.TickFrame := by
  intro s t now h
  obtain ⟨⟨hcrc, hhalted, hconfig, hin, hport, hcall⟩, hframe⟩ := execTick_frame h
  exact ⟨hcrc, hhalted, hconfig, hin, hport, hcall, hframe⟩

end Sys2Proof.Machine

/-! Proofs, family 60_exceptions.md: the transport error surfaced once (R237, R246), `NOP` (R245), the empty port (R243),
and stimuli that coincide on the wires (R234). -/

namespace Sys2Proof.Machine

/-! The transport error (R237, R246). -/

theorem fatalCount_append (l m : List Output) : fatalCount (l ++ m) = fatalCount l + fatalCount m :=
  List.countP_append

/-- Only a `TERR` may surface an error to the process (R8). -/
theorem fatalCount_of_outputShape {i : Instr} (hterr : i ≠ .terr) {out : List Output} (h : outputShape i out = true) :
    fatalCount out = 0 := by
  unfold outputShape at h
  split at h
  -- of the rows of `outputShape`, the ninth is that of `TERR` and the tenth admits nothing
  case h_9 => exact absurd rfl hterr
  case h_10 => cases h
  all_goals rfl

/-- The error has been surfaced once when the flag is set, and never when it is not. -/
def FatalMatchesHalted (s : State) : Prop := fatalCount s.trace = if s.halted then 1 else 0

theorem execTerr_fatalMatchesHalted {s t : State} (hs : FatalMatchesHalted s) (h : execTerr s = .next t) :
    FatalMatchesHalted t := by
  obtain ⟨-, rfl⟩ | ⟨hrun, rfl⟩ := execTerr_next.1 h
  · exact hs
  · rw [FatalMatchesHalted, hrun] at hs
    rw [FatalMatchesHalted, raiseError_trace, fatalCount_append, hs]
    rfl

/-- A `TERR` surfaces the error just when it sets the flag; of the others, those that are no `RST` do neither. -/
theorem exec_fatalMatchesHalted {i : Instr} {s t : State} (hrst : i ≠ .rst) (hs : FatalMatchesHalted s)
    (h : exec i s = .next t) : FatalMatchesHalted t := by
  by_cases hterr : i = .terr
  · subst hterr
    exact execTerr_fatalMatchesHalted hs h
  · obtain ⟨out, htrace, hshape⟩ := exec_emitsShape h
    rw [FatalMatchesHalted, exec_halted h hterr hrst, htrace, fatalCount_append,
      fatalCount_of_outputShape hterr hshape]
    exact hs

theorem fatalMatchesHalted_resetWith (c : Config) : FatalMatchesHalted (State.resetWith c) := rfl

/-- Settles O57: at reset nothing has been emitted, and every operation but `RST` keeps the match. -/
theorem fatalIsEmittedOncePerReset : Obligations.FatalIsEmittedOncePerReset :=
  fun c _ _ hl h => execAll_keeps exec_fatalMatchesHalted hl (fatalMatchesHalted_resetWith c) h

/-- Settles O10: the decoder's answer to code 4, and the two cases of `TERR`. -/
theorem terrHaltsAndSurfacesOnce : Obligations.TerrHaltsAndSurfacesOnce := by
  refine ⟨fun d now => ?_, fun s => ⟨fun hrun => ?_, fun hh => ⟨?_, rfl, fun _ => rfl⟩⟩⟩
  · obtain ⟨-, -, -, -, hterr, -⟩ := eventWordsDecodeByOpcode.2 d now
    exact hterr
  · exact execTerr_next.2 (.inr ⟨hrun, rfl⟩)
  · exact execTerr_next.2 (.inl ⟨hh, rfl⟩)

/-! No event (R243, R245). -/

/-- Settles O8: the decoder's answer to code 0, and the operation's equation. -/
theorem nopDoesNothing : Obligations.NopDoesNothing := by
  refine ⟨fun d now => ?_, fun _ => rfl⟩
  obtain ⟨hnop, -⟩ := eventWordsDecodeByOpcode.2 d now
  exact hnop

/-- Settles O5: a step with an empty port is a `NOP`. -/
theorem emptyPortChangesNothing : Obligations.EmptyPortChangesNothing := by
  intro s hp
  have hstep : step s = exec .nop s := by simp only [step, hp]
  rw [hstep]
  exact nopDoesNothing.2 s

/-! Stimuli that coincide (R234). -/

/-- Settles O59: `RST` stands alone; otherwise the four parts of the serialisation are decoded one by one. -/
theorem simultaneousStimuliAreSerialised : Obligations.SimultaneousStimuliAreSerialised := by
  intro w
  have hdecode := fun d => eventWordsDecodeByOpcode.2 d w.now
  refine ⟨fun hrst => ?_, fun hrst => ?_⟩
  · obtain ⟨-, hcode, -⟩ := hdecode 0#8
    simp [Wires.serialise, hrst, hcode]
  · obtain ⟨-, -, htick, -, hterr, hinit, -⟩ := hdecode 0#8
    simp only [Wires.serialise, hrst, Bool.false_eq_true, if_false, List.map_append, List.map_map]
    congr 3
    · cases w.terr <;> simp [hterr]
    · cases w.rx with
      | none => rfl
      | some b =>
        obtain ⟨-, -, -, hrx, -⟩ := hdecode b
        exact congrArg (fun i => [i]) hrx
    · cases w.tick <;> simp [htick]
    · refine funext fun e => ?_
      cases e with
      | none => exact hinit
      | some b =>
        obtain ⟨-, -, -, -, -, -, hbyte, -⟩ := hdecode b
        exact hbyte

end Sys2Proof.Machine

/-! Proofs, family 70_reset_and_hazards.md: what `RST` leaves (R260), and that under the invariant with a stable
configuration no operation faults or is refused (R261). -/

namespace Sys2Proof.Machine

/-! No operation stops (R261). -/

/-- An attempt completes once the list is legal and the cursor selects from it: its parameters are sent or rejected. -/
theorem attemptRequest_completes {c : Config} {s : State} (now : Timestamp) (hlist : listLegal c = true)
    (hcursor : s.cursorIdx < c.slaves.length) : ∃ t, attemptRequest c now s = .next t := by
  have ha : c.slaves[s.cursorIdx]? = some c.slaves[s.cursorIdx] := List.getElem?_eq_getElem hcursor
  cases hlegal : legalRequest c.slaves[s.cursorIdx] c.startAddr c.regCount with
  | true => exact ⟨_, attemptRequest_of_legal (listLegal_iff.1 hlist) ha hlegal⟩
  | false => exact ⟨_, attemptRequest_of_illegal (listLegal_iff.1 hlist) ha hlegal⟩

/-- With an outstanding request the invariant holds slave and time, so both reads of a `TICK` find their value. -/
theorem execTick_completes {s : State} (now : Timestamp) (hs : Inv s) (hstable : s.ConfigStable) :
    ∃ t, execTick now s = .next t := by
  cases hrun : s.halted with
  | true => exact ⟨s, tickWhileHaltedDoesNothing s now hrun⟩
  | false =>
    by_cases hasm : s.asmState = .accumulating
    · obtain ⟨hcur, hts⟩ := hs.held (by simp [hasm])
      obtain ⟨cur, hcur⟩ := Option.isSome_iff_exists.1 hcur
      obtain ⟨ts, hts⟩ := Option.isSome_iff_exists.1 hts
      cases hto : timedOut s.config now ts with
      | true =>
        rw [execTick_of_timedOut hrun hstable hasm hcur hts hto]
        exact attemptRequest_completes now hs.list (by simpa using hs.cursor)
      | false => exact ⟨s, (execTick_eq_self_iff ⟨hrun, hasm, hstable, hcur⟩ hts).2 hto⟩
    · rw [execTick_of_not_outstanding hrun hstable hasm]
      exact attemptRequest_completes now hs.list hs.cursor

/-- A byte is ignored, or it is judged over bytes that all hold a value, with room left for it (R165). -/
theorem exec_rxByte_completes {s : State} (b : Byte) (now : Timestamp) (hs : Inv s) (hstable : s.ConfigStable) :
    ∃ t, exec (.rxByte b now) s = .next t := by
  by_cases hignored : s.halted = true ∨ s.asmState ≠ .accumulating
  · exact ⟨s, bytesWithoutRequestAreDiscarded s b now hignored⟩
  · obtain ⟨hrun, hasm⟩ : s.halted = false ∧ s.asmState = .accumulating := by simpa using hignored
    obtain ⟨cur, hcur, -⟩ := hs.waitHeader hasm
    obtain ⟨bytes, hbytes⟩ := hs.collecting ⟨hrun, hasm, hstable, hcur⟩
    exact ⟨_, hbytes.exec_rxByte b now⟩

theorem execTerr_completes (s : State) : ∃ t, execTerr s = .next t := by
  cases hrun : s.halted with
  | true => exact ⟨_, execTerr_next.2 (.inl ⟨hrun, rfl⟩)⟩
  | false => exact ⟨_, execTerr_next.2 (.inr ⟨hrun, rfl⟩)⟩

theorem execEncode_completes (a n m : Nat) (s : State) : ∃ t, execEncode a n m s = .next t := by
  cases hr : encodeRequest a n m with
  | some f => exact ⟨_, execEncode_of_some hr s⟩
  | none => exact ⟨_, execEncode_of_none hr s⟩

/-- A `DECODE` call reads the polled slave only where the invariant holds one. -/
theorem execDecode_completes {s : State} (f : ResponseFrame) (hs : Inv s) : ∃ t, execDecode f s = .next t := by
  by_cases hasm : s.asmState = .accumulating
  · obtain ⟨cur, hcur, -⟩ := hs.waitHeader hasm
    exact ⟨_, execDecode_of_outstanding f hasm hcur⟩
  · exact ⟨_, decodeWithoutRequestDiscards s f hasm⟩

/-- Settles O52: a case per operation; only `TICK`, `RX_BYTE` and `DECODE` read what may be absent or refused. -/
theorem everyOperationCompletesUnderInvariant : Obligations.EveryOperationCompletesUnderInvariant := by
  intro i s hs hstable
  cases i with
  | nop => exact ⟨_, rfl⟩
  | rst => exact ⟨_, rfl⟩
  | tick now => exact execTick_completes now hs hstable
  | rxByte b now => exact exec_rxByte_completes b now hs hstable
  | terr => exact execTerr_completes s
  | crcInit => exact ⟨_, rfl⟩
  | crcByte b => exact ⟨_, rfl⟩
  | encode a n m => exact execEncode_completes a n m s
  | decode f => exact execDecode_completes f hs

/-! Reset (R260). -/

/-- Nothing but `RST` leaves the halted state: `TERR` sets the flag, the others do not write it. -/
theorem exec_stays_halted {i : Instr} {s t : State} (hrst : i ≠ .rst) (hh : s.halted = true)
    (h : exec i s = .next t) : t.halted = true := by
  by_cases hterr : i = .terr
  · subst hterr
    exact execTerr_halted h
  · exact (exec_halted h hterr hrst).trans hh

/-- Settles O9: the decoder's answer to code 1, the operation's equation, and who writes the flag. -/
theorem rstLeavesResetValues : Obligations.RstLeavesResetValues := by
  refine ⟨fun d now => ?_, fun _ => rfl, fun _ _ _ => exec_stays_halted⟩
  obtain ⟨-, hrst, -⟩ := eventWordsDecodeByOpcode.2 d now
  exact hrst

end Sys2Proof.Machine
